-- ==== Sys2Proof/Word.lean ====
section
/-! DEFINITION. The bit vectors of the block (00_scope.md R10) and the names of the encoding formats of 30_encoding.md R53. -/

namespace Sys2Proof

/-- One bit: a Bool register (10_state.md R15), `match` (R20), a relay (45_concrete_schemas.md R109). -/
abbrev Bit := BitVec 1

/-- A byte: "a bit vector of width 8" (00_scope.md R10). -/
abbrev Byte := BitVec 8

/-- A 16-bit vector: Int16 and UInt16 registers, checksum words, the checksum field. -/
abbrev Half := BitVec 16

/-- A 32-bit vector: Int32, UInt32 and Float32 registers. -/
abbrev Word := BitVec 32

/-- The three fixed positions of a frame (30_encoding.md R43, R53): index 0, index 1, index `L-1`. -/
inductive FramePos where
  | lead | link | trail
deriving DecidableEq, Repr

/-- The side on which a frame-position row acts: the byte is written (encode) or examined (decode). -/
inductive Direction where
  | send | receive
deriving DecidableEq, Repr

/-- What a frame-position row works on: the byte it writes is fixed (`send`), the byte it examines is any byte (`receive`). -/
inductive FrameAct where
  | send
  | receive (b : Byte)
deriving DecidableEq, Repr

/-- The formats of `opcode_table.json` (30_encoding.md R53). -/
inductive Format where
  | op6
  | wire8
  | wire16
  | framepos (p : FramePos) (d : Direction)
deriving DecidableEq, Repr

end Sys2Proof
end

