-- ==== Sys2Proof/Config.lean ====
section
/-! DEFINITION. The parameters of the block that are fixed (00_scope.md R8, 10_state.md R18). The open parameters `TELEMETRY_SCHEMA` and
`COMMAND_TABLE` are configuration fields of State, so that statements hold for every value of them (log 5, 6); `ACCESSOR_NUMERICS` is a constant of
which nothing is known (log 13). -/

namespace Sys2Proof.Config

/-- The frame delimiter byte (10_state.md R18). -/
abbrev delim : Byte := 0xC0

/-- The escape introducer byte (10_state.md R18). -/
abbrev esc : Byte := 0xDB

/-- The transposed-delimiter token (10_state.md R18). -/
abbrev tDelim : Byte := 0xDC

/-- The transposed-escape token (10_state.md R18). -/
abbrev tEsc : Byte := 0xDD

/-- The link-type byte written by every encode (10_state.md R18). -/
abbrev linkType : Byte := 0x00

/-- The constant of the five Command filler words (10_state.md R18, 45_concrete_schemas.md R95). -/
abbrev filler : Word := 0x12345678

/-- The width of the checksum field in bytes (00_scope.md R8). -/
abbrev ckBytes : Nat := 2

/-- The discriminator codes (10_state.md R23). UNKNOWN is a caller-side sentinel and no Byte value (92_eei_decisions.md D31). -/
def discUnknown : Int := -1

/-- The discriminator code of a Telemetry Record (10_state.md R23). -/
def discData : Byte := 0x00

/-- The discriminator code of a Command Record (10_state.md R23). -/
def discCommand : Byte := 0x01

/-- The discriminator code `ACK` (10_state.md R23); no schema exists for it (00_scope.md R6 (d)). -/
def discAck : Byte := 0x02

/-- Pressure factor 0.000145038 (45_concrete_schemas.md R102). -/
def pressureFactor : Rat := 145038 / 1000000000

/-- Altitude factor 0.0328084, feet per centimetre (45_concrete_schemas.md R103). -/
def altitudeFactor : Rat := 328084 / 10000000

/-- Speed factor 0.000621371 (45_concrete_schemas.md R104). -/
def speedFactor : Rat := 621371 / 1000000000

/-- The divisor of latitude and longitude (45_concrete_schemas.md R105, R106). -/
def degreeDivisor : Rat := 10000000

/-- The divisor of the millisecond counters (45_concrete_schemas.md R107, R108). -/
def secondDivisor : Rat := 1000

/-- How an accessor converts a raw integer: times a printed factor, or over a printed divisor (45_concrete_schemas.md R102 to R108). -/
inductive Conversion where
  | times (factor : Rat)
  | over (divisor : Rat)
deriving DecidableEq, Repr

/-- `ACCESSOR_NUMERICS`, an open parameter: the number that an implementation's floating-point arithmetic gives for the conversion of a raw integer.
Nothing constrains it, for the source gives neither format nor rounding nor tolerance (00_scope.md R8, 45_concrete_schemas.md R110, 92_eei_decisions.md D20;
log 13). -/
opaque accessorNumerics : Conversion → Int → Rat

end Sys2Proof.Config
end

