-- ==== Sys2Proof/Machine/Types.lean ====
section
/-! DEFINITION. The plain data the block works on: field types, field values, Records, names (10_state.md R14, R15, R16, R20; 30_encoding.md R51, R52). -/

namespace Sys2Proof.Machine

/-- The seven primitive wire types (40_field_types.md R54). Their 3-bit tags are in Machine/Schema.lean. -/
inductive FieldType where
  | bool | byte | int16 | uint16 | int32 | uint32 | float32
deriving DecidableEq, Repr

/-- A PacketSchema: "an ordered sequence of FieldType" (10_state.md R14). The empty sequence is admitted (92_eei_decisions.md D24). -/
abbrev Schema := List FieldType

/-- The content of one field value register: a raw bit vector of the width its FieldType fixes (10_state.md R15). -/
inductive FieldValue where
  | bool (v : Bit)
  | byte (v : Byte)
  | int16 (v : Half)
  | uint16 (v : Half)
  | int32 (v : Word)
  | uint32 (v : Word)
  | float32 (v : Word)
deriving DecidableEq, Repr

/-- The field value registers `x[0] .. x[n-1]` of a Record. Each value carries its FieldType, so schema and values are one sequence and cannot
differ in length: "schema and value sequence always constructed together" (10_state.md R16). -/
abbrev Record := List FieldValue

/-- The number `g` of a GPS fix (45_concrete_schemas.md R103). -/
inductive GpsFix where
  | fix1 | fix2
deriving DecidableEq, Repr

/-- The names of fields (45_concrete_schemas.md R95, R99; 30_encoding.md R52). Telemetry layouts are open, so `other` admits further names. -/
inductive FieldName where
  | discriminator
  | commandIndex | commandValue | filler (k : Fin 5)
  | batteryVoltage | temperature (k : Fin 3) | pressureRaw | humidity
  | accelX | accelY | accelZ | gyroX | gyroY | gyroZ | magX | magY | magZ
  | pitch | roll | yaw
  | resetTimeRaw | dataAgeRaw | relayStates | dataLogging | filenameIndex
  | gpsYear (g : GpsFix) | gpsMonth (g : GpsFix) | gpsDay (g : GpsFix)
  | gpsHour (g : GpsFix) | gpsMinute (g : GpsFix) | gpsSecond (g : GpsFix)
  | gpsSpeedRaw (g : GpsFix) | gpsHeadingRaw (g : GpsFix) | gpsSatellites (g : GpsFix)
  | gpsLatitudeRaw (g : GpsFix) | gpsLongitudeRaw (g : GpsFix) | gpsAltitudeRaw (g : GpsFix)
  | other (name : String)
deriving DecidableEq, Repr

/-- A schema with the names of its fields, in field order. -/
abbrev Layout := List (FieldName × FieldType)

/-- Command names (30_encoding.md R52). The source's list may be incomplete (10_state.md R19), so `other` admits further names. -/
inductive CommandName where
  | radioTest | changeTransmissionRate | switchRelays | cutdown | reset
  | other (name : String)
deriving DecidableEq, Repr

/-- `COMMAND_TABLE`: a finite mapping from command names to 8-bit indices (10_state.md R19). -/
abbrev CommandTable := List (CommandName × Byte)

/-- The packet kinds a caller has a schema and a Record for: the two concrete ones and one it constructs itself (70_reset_and_hazards.md R127; log 4). -/
inductive PacketKind where
  | command | telemetry | generic
deriving DecidableEq, Repr

/-- The outcome of a decode, `status` (10_state.md R20 (a)). -/
inductive Status where
  | ok | badFraming | lengthMismatch | checksumMismatch
deriving DecidableEq, Repr

/-- The three decode errors (60_exceptions.md R111). -/
inductive DecodeError where
  | badFraming | lengthMismatch | checksumMismatch
deriving DecidableEq, Repr

/-- The source's `Result<Record, DecodeError>` (44_framing.md R91). -/
inductive FrameResult where
  | ok (x : Record)
  | err (e : DecodeError)
deriving DecidableEq, Repr

/-- A number a caller offers for packing (40_field_types.md R55): a truth value, a rational, or a binary32 datum named by its pattern. -/
inductive Number where
  | truth (b : Bool)
  | rational (q : Rat)
  | datum (pattern : Word)
deriving DecidableEq, Repr

/-- The stages of the encoder sequencer (44_framing.md R93). -/
inductive Stage where
  | lead | link | body | ckLo | ckHi | trail | done
deriving DecidableEq, Repr

end Sys2Proof.Machine
end

