-- ==== Sys2Proof/Machine/Schema.lean ====
section
/-! DEFINITION. Widths, tags, schemas and tables (40_field_types.md R54, 30_encoding.md R51, 41_packet_schema.md R71 to R73, 45_concrete_schemas.md R95, R96, R99). -/

namespace Sys2Proof.Machine

/-- `width(T)` in bytes (40_field_types.md R54). -/
def FieldType.width : FieldType → Nat
  | .bool => 1
  | .byte => 1
  | .int16 => 2
  | .uint16 => 2
  | .int32 => 4
  | .uint32 => 4
  | .float32 => 4

/-- `vbits(T)`, the register width in bits (40_field_types.md R54). -/
def FieldType.vbits : FieldType → Nat
  | .bool => 1
  | .byte => 8
  | .int16 => 16
  | .uint16 => 16
  | .int32 => 32
  | .uint32 => 32
  | .float32 => 32

/-- The 3-bit tag of a FieldType (30_encoding.md R51). -/
def FieldType.tag : FieldType → BitVec 3
  | .bool => 0
  | .byte => 1
  | .int16 => 2
  | .uint16 => 3
  | .int32 => 4
  | .uint32 => 5
  | .float32 => 6

/-- The FieldType of a tag; tag 7 is not assigned (30_encoding.md R49 (h), R51). -/
def fieldTypeOfTag (t : BitVec 3) : Option FieldType :=
  match t.toNat with
  | 0 => some .bool
  | 1 => some .byte
  | 2 => some .int16
  | 3 => some .uint16
  | 4 => some .int32
  | 5 => some .uint32
  | 6 => some .float32
  | _ => none

/-- The schema a list of tags describes, absent when a tag is not assigned (60_exceptions.md R119 `unassigned`). -/
def schemaOfTags : List (BitVec 3) → Option Schema
  | [] => some []
  | t :: ts =>
    match fieldTypeOfTag t, schemaOfTags ts with
    | some T, some sch => some (T :: sch)
    | _, _ => none

/-- The FieldType of a register content. -/
def FieldValue.type : FieldValue → FieldType
  | .bool _ => .bool
  | .byte _ => .byte
  | .int16 _ => .int16
  | .uint16 _ => .uint16
  | .int32 _ => .int32
  | .uint32 _ => .uint32
  | .float32 _ => .float32

/-- `sch` of a Record: the FieldTypes of its values. -/
def schemaOfRecord (x : Record) : Schema := x.map FieldValue.type

/-- `sch.N`, the source's `byteWidth` (41_packet_schema.md R71). -/
def numBytes : Schema → Nat
  | [] => 0
  | T :: sch => T.width + numBytes sch

/-- `sch.off[i]`: the widths of the first `i` fields (41_packet_schema.md R72). -/
def offset (sch : Schema) (i : Nat) : Nat := numBytes (sch.take i)

/-- The all-zero register of a FieldType (41_packet_schema.md R73). -/
def FieldType.zero : FieldType → FieldValue
  | .bool => .bool 0
  | .byte => .byte 0
  | .int16 => .int16 0
  | .uint16 => .uint16 0
  | .int32 => .int32 0
  | .uint32 => .uint32 0
  | .float32 => .float32 0

/-- The FieldTypes of a layout. -/
def schemaOfLayout (l : Layout) : Schema := l.map Prod.snd

/-- The field index of a name: the first field of that name (30_encoding.md R52). -/
def fieldIndex (n : FieldName) : Layout → Option Nat
  | [] => none
  | (m, _) :: l => if m = n then some 0 else (fieldIndex n l).map (· + 1)

/-- The Command record's fields (45_concrete_schemas.md R95). -/
def commandLayout : Layout :=
  [(.discriminator, .byte), (.commandIndex, .byte), (.commandValue, .uint32), (.filler 0, .uint32), (.filler 1, .uint32),
    (.filler 2, .uint32), (.filler 3, .uint32), (.filler 4, .uint32)]

/-- `COMMAND_SCHEMA` (45_concrete_schemas.md R95). -/
def commandSchema : Schema := schemaOfLayout commandLayout

/-- Fields 0 to 23 of `TELEMETRY_SCHEMA_REF` (45_concrete_schemas.md R99). -/
def telemetryHead : Layout :=
  [(.discriminator, .byte), (.batteryVoltage, .float32), (.temperature 0, .float32), (.temperature 1, .float32),
    (.temperature 2, .float32), (.pressureRaw, .int32), (.humidity, .float32), (.accelX, .int16), (.accelY, .int16), (.accelZ, .int16),
    (.gyroX, .int16), (.gyroY, .int16), (.gyroZ, .int16), (.magX, .int16), (.magY, .int16), (.magZ, .int16), (.pitch, .float32),
    (.roll, .float32), (.yaw, .float32), (.resetTimeRaw, .uint32), (.dataAgeRaw, .uint32), (.relayStates, .byte), (.dataLogging, .bool),
    (.filenameIndex, .uint16)]

/-- The twelve fields of one GPS fix in `TELEMETRY_SCHEMA_REF` (45_concrete_schemas.md R99). -/
def telemetryGps (g : GpsFix) : Layout :=
  [(.gpsYear g, .byte), (.gpsMonth g, .byte), (.gpsDay g, .byte), (.gpsHour g, .byte), (.gpsMinute g, .byte), (.gpsSecond g, .byte),
    (.gpsSpeedRaw g, .int32), (.gpsHeadingRaw g, .int32), (.gpsSatellites g, .byte), (.gpsLatitudeRaw g, .int32),
    (.gpsLongitudeRaw g, .int32), (.gpsAltitudeRaw g, .int32)]

/-- `TELEMETRY_SCHEMA_REF`, the spec's reference instance (45_concrete_schemas.md R99, 92_eei_decisions.md D17). -/
def telemetryLayoutRef : Layout := telemetryHead ++ telemetryGps .fix1 ++ telemetryGps .fix2

/-- The reference instance of `COMMAND_TABLE` (45_concrete_schemas.md R96, 92_eei_decisions.md D16). -/
def commandTableRef : CommandTable :=
  [(.radioTest, 0), (.changeTransmissionRate, 1), (.switchRelays, 2), (.cutdown, 3), (.reset, 4)]

/-- `COMMAND_TABLE[name]`, absent when the table lacks the name (45_concrete_schemas.md R96). -/
def lookupCommand (n : CommandName) : CommandTable → Option Byte
  | [] => none
  | (m, i) :: t => if m = n then some i else lookupCommand n t

/-- The Record `REC.NEW` makes of `COMMAND_SCHEMA` (70_reset_and_hazards.md R125). -/
def newCommandRecord : Record :=
  [.byte Config.discCommand, .byte 0, .uint32 0, .uint32 Config.filler, .uint32 Config.filler, .uint32 Config.filler,
    .uint32 Config.filler, .uint32 Config.filler]

/-- `REC.NEW`: all-zero registers, except for the defaults `COMMAND_SCHEMA` declares (41_packet_schema.md R73, 70_reset_and_hazards.md R125). -/
def newRecord (sch : Schema) : Record := if sch = commandSchema then newCommandRecord else sch.map FieldType.zero

/-- The constraint that a layout has a field of that name and type. -/
def Layout.hasField (l : Layout) (n : FieldName) (T : FieldType) : Bool := l.contains (n, T)

/-- The constraint that a layout has a field of that name, of a type the predicate admits. -/
def Layout.hasSome (l : Layout) (n : FieldName) (p : FieldType → Bool) : Bool := l.any fun f => f.1 == n && p f.2

/-- The integer-typed FieldTypes (45_concrete_schemas.md R99 (e)). -/
def FieldType.isInteger : FieldType → Bool
  | .bool => false
  | .float32 => false
  | _ => true

/-- The fields of one GPS fix that 45_concrete_schemas.md R99 (c) and (e) ask of every Telemetry layout. -/
def Layout.gpsAdmissible (l : Layout) (g : GpsFix) : Bool :=
  l.hasField (.gpsYear g) .byte && l.hasField (.gpsMonth g) .byte && l.hasField (.gpsDay g) .byte && l.hasField (.gpsHour g) .byte &&
    l.hasField (.gpsMinute g) .byte && l.hasField (.gpsSecond g) .byte && l.hasField (.gpsLatitudeRaw g) .int32 &&
    l.hasField (.gpsLongitudeRaw g) .int32 && l.hasField (.gpsAltitudeRaw g) .int32 &&
    l.hasSome (.gpsSpeedRaw g) FieldType.isInteger && l.hasSome (.gpsHeadingRaw g) (fun _ => true) &&
    l.hasSome (.gpsSatellites g) (fun _ => true)

/-- The constraints (a) to (g) on `TELEMETRY_SCHEMA` (45_concrete_schemas.md R99), with no name given twice. -/
def Layout.admissible (l : Layout) : Bool :=
  l.head? == some (.discriminator, .byte) &&
    (l.getLast? == some (.gpsAltitudeRaw .fix1, .int32) || l.getLast? == some (.gpsAltitudeRaw .fix2, .int32)) &&
    l.gpsAdmissible .fix1 && l.gpsAdmissible .fix2 && l.hasField .batteryVoltage .float32 &&
    l.hasSome .pressureRaw FieldType.isInteger && l.hasSome .resetTimeRaw FieldType.isInteger &&
    l.hasSome .dataAgeRaw FieldType.isInteger && l.hasSome .relayStates (fun T => T != .bool) &&
    decide (l.map Prod.fst).Nodup

/-- `COMMAND_TABLE` is "a finite injective mapping": no name and no index twice (10_state.md R19). -/
def commandTableInjective (t : CommandTable) : Bool := decide (t.map Prod.fst).Nodup && decide (t.map Prod.snd).Nodup

end Sys2Proof.Machine
end

