-- ==== Sys2Proof/Machine/State.lean ====
section
/-! DEFINITION. The state of the machine, all of it plain data (10_state.md), and the state after reset (10_state.md R26, 70_reset_and_hazards.md R124 to R126). -/

namespace Sys2Proof.Machine

/-- The ports of the caller's value operand and result `v`, one per FieldType, so that a value of the wrong width "cannot be written down" (41_packet_schema.md R74). -/
structure ValuePorts where
  bool : Bit
  byte : Byte
  int16 : Half
  uint16 : Half
  int32 : Word
  uint32 : Word
  float32 : Word
deriving DecidableEq, Repr

/-- Four byte lanes `b0 .. b3`, in buffer order: the operand of `UNPACK.T` (40_field_types.md R63 to R69; log 24). -/
structure FieldBytes where
  b0 : Byte
  b1 : Byte
  b2 : Byte
  b3 : Byte
deriving DecidableEq, Repr

/-- U0 packet_schema_encoder (10_state.md R24): the Record lent to the call, the cursors, and the payload emitted so far. -/
structure U0 where
  active : Bool
  kind : PacketKind
  record : Record
  fi : Nat
  bi : BitVec 2
  pay : List Byte
deriving DecidableEq, Repr

/-- U1 packet_schema_decoder (10_state.md R24): the schema of the call, the cursors, the shift register and the shadow set. -/
structure U1 where
  active : Bool
  kind : PacketKind
  sch : Schema
  fi : Nat
  bi : BitVec 2
  sh : Word
  xs : Record
deriving DecidableEq, Repr

/-- U2 additive_checksum_gen (10_state.md R24). -/
structure U2 where
  active : Bool
  acc : Half
  phase : Bool
deriving DecidableEq, Repr

/-- U3 additive_checksum_verify (10_state.md R24): `acc` and `phase` as U2, and the received checksum. -/
structure U3 where
  sum : U2
  rxck : Half
deriving DecidableEq, Repr

/-- U4 kiss_escape_encoder: "the unit is stateless per byte" (10_state.md R24); only the bytes it has emitted in the call are held. -/
structure U4 where
  escr : List Byte
deriving DecidableEq, Repr

/-- U5 kiss_escape_decoder (10_state.md R24): the escape-pending flag and the bytes emitted so far. -/
structure U5 where
  active : Bool
  escPend : Bool
  raw : List Byte
deriving DecidableEq, Repr

/-- U6 telemetry_frame_formatter (10_state.md R24, 44_framing.md R93): the stage, the contained U0 and U2 (its U4 has no register), the frame emitted so far. -/
structure U6 where
  active : Bool
  kind : PacketKind
  stage : Stage
  u0 : U0
  u2 : U2
  frame : List Byte
deriving DecidableEq, Repr

/-- U7 command_frame_parser (10_state.md R24, 44_framing.md R93): the candidate frame, its length, the count of unescaped bytes, the contained U5, U1, U3. -/
structure U7 where
  active : Bool
  kind : PacketKind
  sch : Schema
  rxbuf : List Byte
  rxlen : Nat
  cnt : Nat
  u5 : U5
  u1 : U1
  u3 : U3
deriving DecidableEq, Repr

/-- The caller's byte buffers (10_state.md R22). -/
inductive BufferName where
  | pay | raw | escr | frame
deriving DecidableEq, Repr

/-- The units that run on their own between `Start` and `End` (41_packet_schema.md R78, 44_framing.md R93). -/
inductive RunUnit where
  | u0 | u6
deriving DecidableEq, Repr

/-- The units that receive `Byte(b)` events between `Start` and `End` (00_scope.md R7). -/
inductive ByteUnit where
  | u1 | u2 | u3 | u4 | u5 | u7
deriving DecidableEq, Repr

/-- One interaction of the caller with the block (70_reset_and_hazards.md R128): it issues operations or wire bytes, hands over an operand, takes a
result, or sends a level S event to a unit (00_scope.md R7). -/
inductive Interaction where
  | fetch (f : Format) (bytes : List Byte)
  | handSchema (tags : List (BitVec 3))
  | handKind (k : PacketKind)
  | handRecord (x : List FieldValue)
  | handIndex (i : Nat)
  | handField (n : FieldName)
  | handValue (v : FieldValue)
  | handNumber (T : FieldType) (z : Number)
  | handFieldBytes (b : FieldBytes)
  | handBuffer (n : BufferName) (bytes : List Byte)
  | handChecksum (rxck : Half)
  | handFix (g : GpsFix)
  | handRelay (k : Nat)
  | handName (n : CommandName)
  | takeStatus
  | takeMatch
  | startRun (u : RunUnit)
  | tick (u : RunUnit)
  | start (u : ByteUnit)
  | byte (u : ByteUnit) (b : Byte)
  | finish (u : ByteUnit)
deriving DecidableEq, Repr

/-- The state of the machine. INVENTORY.md lists each field with the rule that names it. -/
structure State where
  /-- The schema operand of the generic packet kind (10_state.md R14). -/
  sch : Schema
  /-- `TELEMETRY_SCHEMA` with its field names: configuration (45_concrete_schemas.md R99, 92_eei_decisions.md D17). -/
  tlmLayout : Layout
  /-- `COMMAND_TABLE`: configuration (10_state.md R19, 92_eei_decisions.md D16). -/
  commandTable : CommandTable
  /-- The caller's Command Record (45_concrete_schemas.md R95). -/
  cmdRec : Record
  /-- The caller's Telemetry Record (45_concrete_schemas.md R99). -/
  tlmRec : Record
  /-- The caller's Record of another packet kind (10_state.md R15). -/
  genRec : Record
  /-- The packet kind whose schema and Record the schema, Record and framing operations work on (log 4). -/
  kind : PacketKind
  /-- The field index operand `i` (30_encoding.md R47). -/
  idx : Nat
  /-- The fix number operand `g` (45_concrete_schemas.md R103). -/
  fix : GpsFix
  /-- The relay number operand `k` (45_concrete_schemas.md R109). -/
  relay : Nat
  /-- The command name operand (45_concrete_schemas.md R96). -/
  name : CommandName
  /-- The value operand and result `v` (30_encoding.md R47). -/
  vals : ValuePorts
  /-- The lanes that carry the operand bytes of `UNPACK.T` which the payload buffer does not hold (10_state.md R27, 00_scope.md R11; log 24). -/
  fbytes : FieldBytes
  /-- The caller's payload buffer (10_state.md R22). -/
  pay : List Byte
  /-- The caller's unescaped region (10_state.md R22). -/
  raw : List Byte
  /-- The caller's escaped region (10_state.md R22). -/
  escr : List Byte
  /-- The caller's Frame or candidate frame (10_state.md R22). -/
  frame : List Byte
  /-- The received checksum operand of `CSUM.VFY` (43_checksum.md R87). -/
  rxck : Half
  /-- The natural-number result `N` or `sch.off[i]` (41_packet_schema.md R71, R72). -/
  count : Nat
  /-- The checksum result `ck` (43_checksum.md R86). -/
  ck : Half
  /-- The number an accessor returns, an exact rational (45_concrete_schemas.md R110). -/
  reading : Rat
  /-- The number an implementation's accessor returns, evaluated in `ACCESSOR_NUMERICS` (45_concrete_schemas.md R110, 92_eei_decisions.md D20; log 13). -/
  evaluated : Rat
  /-- `status`: "no value until a call produces one" (10_state.md R20, R26). -/
  status : Option Status
  /-- `match`: "no value until a call produces one" (10_state.md R20, R26). -/
  matched : Option Bit
  u0 : U0
  u1 : U1
  u2 : U2
  u3 : U3
  u4 : U4
  u5 : U5
  u6 : U6
  u7 : U7
  /-- The Record that the call in U0 borrowed is still the caller's Record of its kind (20_memory.md R41, 70_reset_and_hazards.md R131; log 11). -/
  loanU0 : Bool
  /-- The Record that the call in U6 borrowed is still the caller's Record of its kind (20_memory.md R41, 70_reset_and_hazards.md R131; log 11). -/
  loanU6 : Bool
  /-- The caller's interactions not yet performed, the first is next (log 1). -/
  pending : List Interaction
deriving DecidableEq, Repr

/-- No behaviour of the block is a fault: "every call ends with a result, one of three errors, or is refused" (93_implementation_defined.md section 1). -/
inductive Fault : Type where
deriving DecidableEq, Repr

/-- Why a step has no meaning. Each is the spec's `refuse`, and safe: the spec says that a claim about a program that reaches one says nothing. -/
inductive Refusal where
  /-- Raised by exec for an instruction that has no meaning yet. Safe. -/
  | notModelled (mnemonic : String)
  /-- Raised by the step for an operation number not in 30_encoding.md R47 and by the hand-over of a schema with tag 7 (60_exceptions.md R119
  `unassigned`). Safe. -/
  | unassigned
  /-- Raised by the step for a fetch at a frame position on send of another byte than the block writes there (30_encoding.md R43). DESIGN CHOICE: the spec
  has no case for such a fetch and R119 of 60_exceptions.md lists no refusal of it (log 26). Safe. -/
  | notWritten
  /-- Raised by the hand-over of a number outside the domain of its FieldType (60_exceptions.md R119 `out_of_domain`). Safe. -/
  | outOfDomain
  /-- Raised by the hand-over of a Record whose value count or types differ from its schema, and by an accessor of a Telemetry layout whose field
  has a type 45_concrete_schemas.md R99 excludes (60_exceptions.md R119 `bad_arity`). Safe. -/
  | badArity
  /-- Raised by `REC.SET`, `REC.GET`, `SCH.OFFSET` with a field index outside the schema, and by a field name the schema does not have
  (60_exceptions.md R119 `bad_index`). Safe. -/
  | badIndex
  /-- Raised by `SCH.DECODE` and by U1 on other than `sch.N` bytes (60_exceptions.md R119 `bad_length`, 41_packet_schema.md R78). Safe. -/
  | badLength
  /-- Raised by `CMD.LOOKUP` of a name not in the table (60_exceptions.md R119 `unknown_command`). Safe. -/
  | unknownCommand
  /-- Raised by `ACC.RELAY` with `k > 3` (60_exceptions.md R119 `bad_relay`). Safe. -/
  | badRelay
  /-- Raised by `REC.SET` of a Record lent to an encode in progress (70_reset_and_hazards.md R131, 92_eei_decisions.md D27,
  93_implementation_defined.md I14). Safe. -/
  | recordLent
  /-- Raised by a level S event of a unit that is not between `Start` and `End` (10_state.md R24). Safe. -/
  | outsideCall
deriving DecidableEq, Repr

/-- U0 at the values of `Start`, with no call in progress (10_state.md R24, R26; 70_reset_and_hazards.md R124). DESIGN CHOICE: outside a call the spec
gives the call's operands no value; the unit then holds the kind Command and the empty Record (log 10). -/
def U0.idle : U0 := { active := false, kind := .command, record := [], fi := 0, bi := 0, pay := [] }

/-- U1 at the values of `Start`, with no call in progress (10_state.md R24, R26). DESIGN CHOICE: the kind Command and the empty schema stand for the
operands no call has given (log 10). -/
def U1.idle : U1 := { active := false, kind := .command, sch := [], fi := 0, bi := 0, sh := 0, xs := [] }

/-- U2 at the values of `Start`, with no call in progress (10_state.md R24, R26). -/
def U2.idle : U2 := { active := false, acc := 0, phase := false }

/-- U3 at the values of `Start`, with no call in progress (10_state.md R24, R26). DESIGN CHOICE: `rxck` is 0 until a call supplies it (log 10). -/
def U3.idle : U3 := { sum := U2.idle, rxck := 0 }

/-- U4 at `Start` (10_state.md R24, R26). -/
def U4.idle : U4 := { escr := [] }

/-- U5 at the values of `Start`, with no call in progress (10_state.md R24, R26). -/
def U5.idle : U5 := { active := false, escPend := false, raw := [] }

/-- U6 at the values of `Start`, with no call in progress (10_state.md R24, R26). Its kind is Telemetry (00_scope.md R2). DESIGN CHOICE: the U0 it contains
holds the operands of U0.idle (log 10). -/
def U6.idle : U6 := { active := false, kind := .telemetry, stage := .lead, u0 := U0.idle, u2 := U2.idle, frame := [] }

/-- U7 at the values of `Start`, with no call in progress (10_state.md R24, R26). Its kind is Command (00_scope.md R2). DESIGN CHOICE: the empty schema stands
for the one no call has given, and the units it contains hold the operands of U1.idle and U3.idle (log 10). -/
def U7.idle : U7 :=
  { active := false, kind := .command, sch := [], rxbuf := [], rxlen := 0, cnt := 0, u5 := U5.idle, u1 := U1.idle, u3 := U3.idle }

/-- The machine after reset (10_state.md R26, 70_reset_and_hazards.md R124 to R126; log 5, 6, 10). -/
def State.reset : State where
  sch := []
  tlmLayout := telemetryLayoutRef
  commandTable := commandTableRef
  cmdRec := newRecord commandSchema
  tlmRec := newRecord (schemaOfLayout telemetryLayoutRef)
  genRec := newRecord []
  kind := .command
  idx := 0
  fix := .fix1
  relay := 0
  name := .radioTest
  vals := { bool := 0, byte := 0, int16 := 0, uint16 := 0, int32 := 0, uint32 := 0, float32 := 0 }
  fbytes := { b0 := 0, b1 := 0, b2 := 0, b3 := 0 }
  pay := []
  raw := []
  escr := []
  frame := []
  rxck := 0
  count := 0
  ck := 0
  reading := 0
  evaluated := 0
  status := none
  matched := none
  u0 := U0.idle
  u1 := U1.idle
  u2 := U2.idle
  u3 := U3.idle
  u4 := U4.idle
  u5 := U5.idle
  u6 := U6.idle
  u7 := U7.idle
  loanU0 := false
  loanU6 := false
  pending := []

end Sys2Proof.Machine
end

