-- ==== Sys2Proof/Machine/Ops.lean ====
section
/-! DEFINITION. The operations over buffers, registers and Records that the meanings share, and the delivery of a decode error, which is this
block's analogue of taking an exception (60_exceptions.md R116). -/

namespace Sys2Proof.Machine

/-- The outcome of an operation of the machine. -/
abbrev Result := Host.Outcome State Fault Refusal

/-- `buf[lo..hi)` (00_scope.md R10). -/
def slice (buf : List Byte) (lo hi : Nat) : List Byte := (buf.take hi).drop lo

/-- `MemRead(buf, 0, n)` for the `n = len(buf) ≤ 4` bytes of a buffer, zero-extended to 32 bits: the bytes assembled little-endian, the later byte
the more significant (00_scope.md R11, 20_memory.md R28). -/
def assemble : List Byte → Word
  | [] => 0
  | b :: bs => (assemble bs).extractLsb' 0 24 ++ b

/-- `MemWrite` of a 16-bit vector: the low byte first (00_scope.md R11, 20_memory.md R28). -/
def leBytes16 (v : Half) : List Byte := [v.extractLsb' 0 8, v.extractLsb' 8 8]

/-- `MemWrite` of a 32-bit vector: the low byte first (00_scope.md R11, 20_memory.md R28). -/
def leBytes32 (v : Word) : List Byte := [v.extractLsb' 0 8, v.extractLsb' 8 8, v.extractLsb' 16 8, v.extractLsb' 24 8]

/-- `PACK.T`: the bytes of a field value register (30_encoding.md R45, 40_field_types.md R56 to R62). -/
def pack : FieldValue → List Byte
  | .bool v => [v.setWidth 8]
  | .byte v => [v]
  | .int16 v => leBytes16 v
  | .uint16 v => leBytes16 v
  | .int32 v => leBytes32 v
  | .uint32 v => leBytes32 v
  | .float32 v => leBytes32 v

/-- The register content of a field from its bytes assembled little-endian: a Bool is 1 unless its byte is `0x00`, the other types keep their
low `vbits(T)` bits (30_encoding.md R48 (a), (b); 40_field_types.md R63 to R69). -/
def fieldOfBits (T : FieldType) (w : Word) : FieldValue :=
  match T with
  | .bool => .bool (if w.extractLsb' 0 8 = 0 then 0 else 1)
  | .byte => .byte (w.extractLsb' 0 8)
  | .int16 => .int16 (w.extractLsb' 0 16)
  | .uint16 => .uint16 (w.extractLsb' 0 16)
  | .int32 => .int32 w
  | .uint32 => .uint32 w
  | .float32 => .float32 w

/-- `UNPACK.T` of the `width(T)` bytes of a field (40_field_types.md R63 to R69). -/
def unpack (T : FieldType) (bs : List Byte) : FieldValue := fieldOfBits T (assemble bs)

/-- `SCH.ENCODE`: the fields packed in schema order (41_packet_schema.md R76). -/
def packRecord : Record → List Byte
  | [] => []
  | v :: x => pack v ++ packRecord x

/-- `SCH.DECODE` of `sch.N` bytes: the fields unpacked in schema order (41_packet_schema.md R77). -/
def unpackRecord : Schema → List Byte → Record
  | [], _ => []
  | T :: sch, bs => unpack T (bs.take T.width) :: unpackRecord sch (bs.drop T.width)

/-- The register as a 32-bit vector, the upper bits zero. -/
def fieldBits : FieldValue → Word
  | .bool v => v.setWidth 32
  | .byte v => v.setWidth 32
  | .int16 v => v.setWidth 32
  | .uint16 v => v.setWidth 32
  | .int32 v => v
  | .uint32 v => v
  | .float32 v => v

/-- Byte `bi` of a register: `zext_8(v)` for a Bool, `v[8*bi+7 : 8*bi]` otherwise (41_packet_schema.md R78). -/
def fieldByte (v : FieldValue) (bi : BitVec 2) : Byte := (fieldBits v >>> (8 * bi.toNat)).setWidth 8

/-- The schema a packet kind works against (70_reset_and_hazards.md R127). -/
def State.schemaOf (s : State) : PacketKind → Schema
  | .command => commandSchema
  | .telemetry => schemaOfLayout s.tlmLayout
  | .generic => s.sch

/-- The caller's Record of a packet kind. -/
def State.recordOf (s : State) : PacketKind → Record
  | .command => s.cmdRec
  | .telemetry => s.tlmRec
  | .generic => s.genRec

/-- The caller's Record of a packet kind is now `x`. -/
def State.setRecord (s : State) (k : PacketKind) (x : Record) : State :=
  match k with
  | .command => { s with cmdRec := x }
  | .telemetry => { s with tlmRec := x }
  | .generic => { s with genRec := x }

/-- The caller's Record of a packet kind is now `x`, a fresh one: it shares nothing with a Record that an encode has on loan (20_memory.md R41; log 11). -/
def State.freshRecord (s : State) (k : PacketKind) (x : Record) : State :=
  { s.setRecord k x with loanU0 := s.loanU0 && s.u0.kind != k, loanU6 := s.loanU6 && s.u6.kind != k }

/-- The names of the fields of a packet kind; those of the generic kind are not named (30_encoding.md R52). -/
def State.layoutOf (s : State) : PacketKind → Layout
  | .command => commandLayout
  | .telemetry => s.tlmLayout
  | .generic => []

/-- The caller's buffer of that name is now `bs` (10_state.md R22). -/
def State.setBuffer (s : State) (n : BufferName) (bs : List Byte) : State :=
  match n with
  | .pay => { s with pay := bs }
  | .raw => { s with raw := bs }
  | .escr => { s with escr := bs }
  | .frame => { s with frame := bs }

/-- A call writes `status` (10_state.md R20 (a)). -/
def State.setStatus (s : State) (st : Status) : State := { s with status := some st }

/-- The status of a decode error (60_exceptions.md R111). -/
def DecodeError.status : DecodeError → Status
  | .badFraming => .badFraming
  | .lengthMismatch => .lengthMismatch
  | .checksumMismatch => .checksumMismatch

/-- `raise <Error>`, the analogue of taking an exception: "the return value of the call and nothing more". No Record is delivered, none the caller
holds is changed, nothing is saved and control goes nowhere (60_exceptions.md R116); there is no return operation (R117). -/
def State.raise (s : State) (e : DecodeError) : State := s.setStatus e.status

/-- The end of a decode: `OK` with a fresh Record, or one error (44_framing.md R91, 60_exceptions.md R116). -/
def State.deliver (s : State) (k : PacketKind) : FrameResult → State
  | .ok x => (s.freshRecord k x).setStatus .ok
  | .err e => s.raise e

/-- The caller's Record of a packet kind is the one lent to an encode in progress in U0 or U6 (20_memory.md R41, 70_reset_and_hazards.md R131; log 11). -/
def State.lent (s : State) (k : PacketKind) : Bool := (s.loanU0 && s.u0.kind == k) || (s.loanU6 && s.u6.kind == k)

end Sys2Proof.Machine
end

