-- ==== Sys2Proof/Machine/Operands.lean ====
section
/-! DEFINITION. The operand forms: the value ports `v`, the number-to-register maps `enc_T` and `val_T` (40_field_types.md R55), named fields. -/

namespace Sys2Proof.Machine

/-- The value port of a FieldType. -/
def ValuePorts.get (p : ValuePorts) : FieldType → FieldValue
  | .bool => .bool p.bool
  | .byte => .byte p.byte
  | .int16 => .int16 p.int16
  | .uint16 => .uint16 p.uint16
  | .int32 => .int32 p.int32
  | .uint32 => .uint32 p.uint32
  | .float32 => .float32 p.float32

/-- The value port of the value's FieldType now holds it. -/
def ValuePorts.put (p : ValuePorts) : FieldValue → ValuePorts
  | .bool v => { p with bool := v }
  | .byte v => { p with byte := v }
  | .int16 v => { p with int16 := v }
  | .uint16 v => { p with uint16 := v }
  | .int32 v => { p with int32 := v }
  | .uint32 v => { p with uint32 := v }
  | .float32 v => { p with float32 := v }

/-- A call returns the register content `v` (30_encoding.md R47). -/
def State.setValue (s : State) (v : FieldValue) : State := { s with vals := s.vals.put v }

/-- The operand bytes of `UNPACK.T`: the leading bytes of the payload buffer (10_state.md R27). DESIGN CHOICE: where the payload is shorter than the
field, `MemRead` is not defined (00_scope.md R11), and the bytes it lacks are those the caller holds on the lanes, any bytes at all (log 24). -/
def State.fieldBytes (s : State) : FieldBytes :=
  { b0 := s.pay[0]?.getD s.fbytes.b0, b1 := s.pay[1]?.getD s.fbytes.b1, b2 := s.pay[2]?.getD s.fbytes.b2, b3 := s.pay[3]?.getD s.fbytes.b3 }

/-- The operand bytes of `UNPACK.T` assembled little-endian: `{b3, b2, b1, b0}` (30_encoding.md R48 (a)). -/
def FieldBytes.bits (b : FieldBytes) : Word := assemble [b.b0, b.b1, b.b2, b.b3]

/-- The integer a register stands for; a Bool and a Float32 stand for none (10_state.md R15, 40_field_types.md R55). -/
def FieldValue.int? : FieldValue → Option Int
  | .bool _ => none
  | .byte v => some v.toNat
  | .int16 v => some v.toInt
  | .uint16 v => some v.toNat
  | .int32 v => some v.toInt
  | .uint32 v => some v.toNat
  | .float32 _ => none

/-- `val_T`: the number a register stands for (40_field_types.md R55). -/
def valNumber : FieldValue → Number
  | .bool v => .truth (v == 1)
  | .byte v => .rational v.toNat
  | .int16 v => .rational v.toInt
  | .uint16 v => .rational v.toNat
  | .int32 v => .rational v.toInt
  | .uint32 v => .rational v.toNat
  | .float32 v => .datum v

/-- The integers from `lo` to `hi` that a rational may be. -/
def intInRange (lo hi : Int) (q : Rat) : Option Int := if q.den = 1 ∧ lo ≤ q.num ∧ q.num ≤ hi then some q.num else none

/-- The fraction and exponent bits of the binary32 datum `m * 2^e` with `m < 2^24` (93_implementation_defined.md G1; log 12). -/
def binary32Bits (sign : Bool) (m : Nat) (e : Int) : Option Word :=
  let s : Word := if sign then 0x80000000 else 0
  if m < 2 ^ 23 then some (s ||| BitVec.ofNat 32 m)
  else if e + 150 ≤ 254 then some (s ||| BitVec.ofNat 32 ((e + 150).toNat * 2 ^ 23 + (m - 2 ^ 23)))
  else none

/-- The pattern of the binary32 datum that equals a rational, absent when none does; zero is +0.0 (40_field_types.md R55; log 12). -/
def encBinary32 (q : Rat) : Option Word :=
  let n := q.num.natAbs
  let k := q.den.log2
  let e : Int := max (-149) ((n.log2 : Int) - k - 23)
  let up := -(k : Int) - e
  if n = 0 then some 0
  else if q.den ≠ 2 ^ k then none
  else if 0 ≤ up then binary32Bits (q.num < 0) (n * 2 ^ up.toNat) e
  else if n % 2 ^ (-up).toNat = 0 then binary32Bits (q.num < 0) (n / 2 ^ (-up).toNat) e
  else none

/-- `enc_T(z)`: the register of a number in the domain of `T`; a number outside it has none, "never wrapped, truncated or saturated" (40_field_types.md R55).
DESIGN CHOICE: a binary32 datum offered by its pattern is a number of the Float32 domain alone, also where it equals an integer; the equal rational is what an
integer type takes (log 28). -/
def encNumber : FieldType → Number → Option FieldValue
  | .bool, .truth b => some (.bool (BitVec.ofBool b))
  | .byte, .rational q => (intInRange 0 255 q).map fun z => .byte (BitVec.ofInt 8 z)
  | .int16, .rational q => (intInRange (-32768) 32767 q).map fun z => .int16 (BitVec.ofInt 16 z)
  | .uint16, .rational q => (intInRange 0 65535 q).map fun z => .uint16 (BitVec.ofInt 16 z)
  | .int32, .rational q => (intInRange (-2147483648) 2147483647 q).map fun z => .int32 (BitVec.ofInt 32 z)
  | .uint32, .rational q => (intInRange 0 4294967295 q).map fun z => .uint32 (BitVec.ofInt 32 z)
  | .float32, .rational q => (encBinary32 q).map .float32
  | .float32, .datum p => some (.float32 p)
  | _, _ => none

/-- A named field of the caller's Telemetry Record (45_concrete_schemas.md R110). -/
def State.telemetryField (s : State) (n : FieldName) : Option FieldValue :=
  match fieldIndex n s.tlmLayout with
  | none => none
  | some i => s.tlmRec[i]?

end Sys2Proof.Machine
end

