-- ==== Sys2Proof/Machine/Accessors.lean ====
section
/-! DEFINITION. The derived-unit accessors: exact functions of one register of the Telemetry Record into the rationals (45_concrete_schemas.md R102 to R110; log 13). -/

namespace Sys2Proof.Machine

/-- The exact result of a conversion (45_concrete_schemas.md R110). -/
def exactReading (c : Config.Conversion) (z : Int) : Rat :=
  match c with
  | .times factor => z * factor
  | .over divisor => z / divisor

/-- An accessor: the integer a named register stands for, converted, exactly and in the implementation's arithmetic. A layout without that integer field is
not a Telemetry layout (45_concrete_schemas.md R99 (c), (e)) and is refused. DESIGN CHOICE: in a layout that R99 (c) excludes because its altitude,
latitude or longitude is of another integer type than Int32, the integer its register stands for is converted (log 13). -/
def readInteger (n : FieldName) (c : Config.Conversion) (s : State) : Result :=
  match s.telemetryField n with
  | none => .refused .badIndex
  | some v =>
    match v.int? with
    | none => .refused .badArity
    | some z => .next { s with reading := exactReading c z, evaluated := Config.accessorNumerics c z }

/-- R102: pressure times 0.000145038. -/
def execAccPressure (s : State) : Result := readInteger .pressureRaw (.times Config.pressureFactor) s

/-- R103: altitude of the fix times 0.0328084. -/
def execAccAltitude (s : State) : Result := readInteger (.gpsAltitudeRaw s.fix) (.times Config.altitudeFactor) s

/-- R104: speed of the fix times 0.000621371. -/
def execAccSpeed (s : State) : Result := readInteger (.gpsSpeedRaw s.fix) (.times Config.speedFactor) s

/-- R105: latitude of the fix over 10,000,000. -/
def execAccLat (s : State) : Result := readInteger (.gpsLatitudeRaw s.fix) (.over Config.degreeDivisor) s

/-- R106: longitude of the fix over 10,000,000. -/
def execAccLon (s : State) : Result := readInteger (.gpsLongitudeRaw s.fix) (.over Config.degreeDivisor) s

/-- R107: reset time over 1000, an exact division. -/
def execAccResettime (s : State) : Result := readInteger .resetTimeRaw (.over Config.secondDivisor) s

/-- R108: data age over 1000, an exact division. -/
def execAccDataage (s : State) : Result := readInteger .dataAgeRaw (.over Config.secondDivisor) s

/-- R109: bit `k` of the relay-state register; `k > 3` is refused. -/
def execAccRelay (s : State) : Result :=
  if s.relay ≤ 3 then
    match s.telemetryField .relayStates with
    | none => .refused .badIndex
    | some (.bool _) => .refused .badArity
    | some v => .next (s.setValue (.bool ((fieldBits v).extractLsb' s.relay 1)))
  else .refused .badRelay

end Sys2Proof.Machine
end

