-- ==== Sys2Proof/Machine/Flags.lean ====
section
/-! DEFINITION. The flag computations: the codes of `status`, the word sum and `match` (10_state.md R20, 30_encoding.md R51, 43_checksum.md R85 to R87). -/

namespace Sys2Proof.Machine

/-- The 2-bit code of `status` (30_encoding.md R51, 60_exceptions.md R111). -/
def Status.code : Status → BitVec 2
  | .ok => 0
  | .badFraming => 1
  | .lengthMismatch => 2
  | .checksumMismatch => 3

/-- `WSUM`: the sum of the little-endian 16-bit words modulo 2^16, carries dropped, an odd last byte paired with a zero high byte
(43_checksum.md R85, 20_memory.md R32). -/
def wordSum : List Byte → Half
  | [] => 0
  | [lo] => lo.setWidth 16
  | lo :: hi :: p => (hi ++ lo) + wordSum p

/-- `CSUM.GEN`: `0xFFFF - WSUM(p)` (43_checksum.md R86). -/
def checksum (p : List Byte) : Half := 0xFFFF - wordSum p

/-- `CSUM.VFY`: 1 when the recomputed checksum equals the received one, else 0 (43_checksum.md R87). -/
def checksumMatch (p : List Byte) (rxck : Half) : Bit := if checksum p = rxck then 1 else 0

end Sys2Proof.Machine
end

