-- ==== Sys2Proof/Machine/Checksum.lean ====
section
/-! DEFINITION. The meanings of `CSUM.GEN` and `CSUM.VFY` (43_checksum.md R86, R87). -/

namespace Sys2Proof.Machine

/-- R86: `ck <- 0xFFFF - WSUM(p)`. -/
def execCsumGen (s : State) : Result := .next { s with ck := checksum s.pay }

/-- R87: `match <- 1` when the recomputed checksum equals the received one, else 0. -/
def execCsumVfy (s : State) : Result := .next { s with matched := some (checksumMatch s.pay s.rxck) }

end Sys2Proof.Machine
end

