-- ==== Sys2Proof/Syntax.lean ====
section
/-! DEFINITION. The instructions: one constructor per row of spec/opcode_table.json (30_encoding.md R47, R53). An `OP6` row encodes no operand:
its operands are the caller's variables, which State holds (log 2). A wire row carries the byte it matches where the row leaves that byte open. -/

namespace Sys2Proof

inductive Instr where
  -- OP6: the Field Type Table, 40_field_types.md R56 to R69
  | packBool | packByte | packI16 | packU16 | packI32 | packU32 | packF32
  | unpackBool | unpackByte | unpackI16 | unpackU16 | unpackI32 | unpackU32 | unpackF32
  -- OP6: Packet Schema and Record, 41_packet_schema.md R71 to R77
  | schNumbytes | schOffset | recNew | recSet | recGet | schEncode | schDecode
  -- OP6: Checksum and Escape Codec, 43_checksum.md R86, R87; 42_escape.md R80, R81
  | csumGen | csumVfy | kissEsc | kissUnesc
  -- OP6: framing, 44_framing.md R90, R91; 45_concrete_schemas.md R97, R98, R100, R101
  | tlmFmt | cmdParse | frmEnc | frmDec | cmdFmt | tlmParse
  -- OP6: accessors and the command table, 45_concrete_schemas.md R102 to R109, R96
  | accPressure | accAltitude | accSpeed | accLat | accLon | accResettime | accDataage | accRelay
  | cmdLookup
  -- WIRE8: one input byte of U4, 42_escape.md R80
  | keeDelim | keeEsc | keeLit (b : Byte)
  -- WIRE16: one input position of U5, 42_escape.md R81
  | kedPairDelim | kedPairEsc | kedLone | kedLit (b : Byte)
  -- FRAMEPOS: the fixed bytes of a frame, 30_encoding.md R43
  | frmLead (a : FrameAct) | frmLink (a : FrameAct) | frmTrail (a : FrameAct)
deriving DecidableEq, Repr

end Sys2Proof
end

