-- ==== Sys2Proof/WellFormed.lean ====
section
/-! DEFINITION. Which instructions the wire rows can name: a row tried after another stands only for the bytes the earlier rows leave
("Rows of one format are tried in the order listed", 30_encoding.md R53). -/

namespace Sys2Proof

/-- KEE.LIT is "any other byte" than DELIM and ESC; KED.LIT is "any first byte b other than ESC". Every other instruction is well-formed. -/
def Instr.wellFormed : Instr → Bool
  | .keeLit b => b != Config.delim && b != Config.esc
  | .kedLit b => b != Config.esc
  | _ => true

end Sys2Proof
end

