-- ==== Sys2Proof/Decode.lean ====
section
/-! DEFINITION. The decoder, total on any bytes of any format, and the encoder, written from the same tables (30_encoding.md R43, R46, R47, R53). -/

namespace Sys2Proof

/-- Why bytes are no instruction: `empty`, there is no byte; `unassigned`, an operation number not in 30_encoding.md R47 (R49 (h));
`notWritten`, a byte that the block never writes at that frame position (30_encoding.md R43; that a fetch of one on send is no instruction is a DESIGN
CHOICE, log 26). -/
inductive Reject where
  | empty
  | unassigned (op : Byte)
  | notWritten (b : Byte)
deriving DecidableEq, Repr

/-- What the decoder answers: an instruction with the bytes it leaves, or a rejection by name. -/
inductive Decoded where
  | instr (i : Instr) (rest : List Byte)
  | reject (r : Reject)
deriving DecidableEq, Repr

/-- The operation numbers of 30_encoding.md R47. The number has six bits, `op[5:0]`; it stands in a byte whose two upper bits are 0 (log 3). -/
def decodeOp6 (op : Byte) : Option Instr :=
  match op.toNat with
  | 0x00 => some .packBool
  | 0x01 => some .packByte
  | 0x02 => some .packI16
  | 0x03 => some .packU16
  | 0x04 => some .packI32
  | 0x05 => some .packU32
  | 0x06 => some .packF32
  | 0x08 => some .unpackBool
  | 0x09 => some .unpackByte
  | 0x0A => some .unpackI16
  | 0x0B => some .unpackU16
  | 0x0C => some .unpackI32
  | 0x0D => some .unpackU32
  | 0x0E => some .unpackF32
  | 0x10 => some .schNumbytes
  | 0x11 => some .schOffset
  | 0x12 => some .recNew
  | 0x13 => some .recSet
  | 0x14 => some .recGet
  | 0x18 => some .schEncode
  | 0x19 => some .schDecode
  | 0x1A => some .csumGen
  | 0x1B => some .csumVfy
  | 0x1C => some .kissEsc
  | 0x1D => some .kissUnesc
  | 0x1E => some .tlmFmt
  | 0x1F => some .cmdParse
  | 0x20 => some .frmEnc
  | 0x21 => some .frmDec
  | 0x22 => some .cmdFmt
  | 0x23 => some .tlmParse
  | 0x28 => some .accPressure
  | 0x29 => some .accAltitude
  | 0x2A => some .accSpeed
  | 0x2B => some .accLat
  | 0x2C => some .accLon
  | 0x2D => some .accResettime
  | 0x2E => some .accDataage
  | 0x2F => some .accRelay
  | 0x30 => some .cmdLookup
  | _ => none

/-- The `WIRE8` rows, tried in their order (42_escape.md R80). -/
def decodeWire8 (b : Byte) : Instr :=
  if b = Config.delim then .keeDelim
  else if b = Config.esc then .keeEsc
  else .keeLit b

/-- The `WIRE16` rows at the first byte `b` with `next` the byte after it, absent at the end of the region (42_escape.md R81). -/
def decodeWire16 (b : Byte) (next : Option Byte) : Instr :=
  if b = Config.esc then
    if next = some Config.tDelim then .kedPairDelim
    else if next = some Config.tEsc then .kedPairEsc
    else .kedLone
  else .kedLit b

/-- How many bytes of the region a `WIRE16` row consumes: a pair two, the others one (42_escape.md R81). -/
def wire16Length : Instr → Nat
  | .kedPairDelim => 2
  | .kedPairEsc => 2
  | _ => 1

/-- The instruction of a frame position with the given operand. -/
def framePosInstr (p : FramePos) (a : FrameAct) : Instr :=
  match p with
  | .lead => .frmLead a
  | .link => .frmLink a
  | .trail => .frmTrail a

/-- The byte the block writes at a frame position (30_encoding.md R43). -/
def framePosByte : FramePos → Byte
  | .lead => Config.delim
  | .link => Config.linkType
  | .trail => Config.delim

/-- The decoder: the first instruction of the bytes in the given format, with the bytes after it. DESIGN CHOICE: the bytes of one `WIRE16` fetch are a
whole region, so an `ESC` that ends them is the last byte of the region (log 27). DESIGN CHOICE: on send a frame position holds the byte the block
writes there and no other byte is an instruction (log 26). -/
def decode (f : Format) : List Byte → Decoded
  | [] => .reject .empty
  | b :: bs =>
    match f with
    | .op6 =>
      match decodeOp6 b with
      | some i => .instr i bs
      | none => .reject (.unassigned b)
    | .wire8 => .instr (decodeWire8 b) bs
    | .wire16 =>
      let i := decodeWire16 b bs.head?
      .instr i ((b :: bs).drop (wire16Length i))
    | .framepos p .receive => .instr (framePosInstr p (.receive b)) bs
    | .framepos p .send => if b = framePosByte p then .instr (framePosInstr p .send) bs else .reject (.notWritten b)

/-- The direction a frame-position operand belongs to. -/
def actDirection : FrameAct → Direction
  | .send => .send
  | .receive _ => .receive

/-- The format an instruction is encoded in (30_encoding.md R53). -/
def formatOf : Instr → Format
  | .keeDelim | .keeEsc | .keeLit _ => .wire8
  | .kedPairDelim | .kedPairEsc | .kedLone | .kedLit _ => .wire16
  | .frmLead a => .framepos .lead (actDirection a)
  | .frmLink a => .framepos .link (actDirection a)
  | .frmTrail a => .framepos .trail (actDirection a)
  | _ => .op6

/-- The byte of a frame-position instruction: the one written, or the one examined. -/
def actByte (p : FramePos) : FrameAct → Byte
  | .send => framePosByte p
  | .receive b => b

/-- The encoder: the bytes of an instruction, from the tables of 30_encoding.md R47 (operation numbers), R46 (escape pairs) and R43. -/
def encode : Instr → List Byte
  | .packBool => [0x00]
  | .packByte => [0x01]
  | .packI16 => [0x02]
  | .packU16 => [0x03]
  | .packI32 => [0x04]
  | .packU32 => [0x05]
  | .packF32 => [0x06]
  | .unpackBool => [0x08]
  | .unpackByte => [0x09]
  | .unpackI16 => [0x0A]
  | .unpackU16 => [0x0B]
  | .unpackI32 => [0x0C]
  | .unpackU32 => [0x0D]
  | .unpackF32 => [0x0E]
  | .schNumbytes => [0x10]
  | .schOffset => [0x11]
  | .recNew => [0x12]
  | .recSet => [0x13]
  | .recGet => [0x14]
  | .schEncode => [0x18]
  | .schDecode => [0x19]
  | .csumGen => [0x1A]
  | .csumVfy => [0x1B]
  | .kissEsc => [0x1C]
  | .kissUnesc => [0x1D]
  | .tlmFmt => [0x1E]
  | .cmdParse => [0x1F]
  | .frmEnc => [0x20]
  | .frmDec => [0x21]
  | .cmdFmt => [0x22]
  | .tlmParse => [0x23]
  | .accPressure => [0x28]
  | .accAltitude => [0x29]
  | .accSpeed => [0x2A]
  | .accLat => [0x2B]
  | .accLon => [0x2C]
  | .accResettime => [0x2D]
  | .accDataage => [0x2E]
  | .accRelay => [0x2F]
  | .cmdLookup => [0x30]
  | .keeDelim => [Config.delim]
  | .keeEsc => [Config.esc]
  | .keeLit b => [b]
  | .kedPairDelim => [Config.esc, Config.tDelim]
  | .kedPairEsc => [Config.esc, Config.tEsc]
  | .kedLone => [Config.esc]
  | .kedLit b => [b]
  | .frmLead a => [actByte .lead a]
  | .frmLink a => [actByte .link a]
  | .frmTrail a => [actByte .trail a]

/-- The format and the bytes of a word numbered as spec/opcode_table.json numbers it: one byte below 0x40 is an operation number, any other
single byte a `WIRE8` byte, two bytes a `WIRE16` window whose first byte is the high half (30_encoding.md R53; log 3). -/
def tableWordBytes (nbits w : Nat) : Option (Format × List Byte) :=
  if nbits ≤ 8 then
    if w < 0x40 then some (.op6, [BitVec.ofNat 8 w]) else some (.wire8, [BitVec.ofNat 8 w])
  else if nbits ≤ 16 then some (.wire16, [BitVec.ofNat 8 (w / 256), BitVec.ofNat 8 w])
  else none

/-- The instruction the decoder reads from a table word. -/
def decodeTableWord (nbits w : Nat) : Option Instr :=
  match tableWordBytes nbits w with
  | none => none
  | some (f, bs) =>
    match decode f bs with
    | .instr i _ => some i
    | .reject _ => none

end Sys2Proof
end

