-- ==== Sys2Proof/Machine/Escape.lean ====
section
/-! DEFINITION. The escape codec: `KISS.ESC`, `KISS.UNESC` and their wire rows `KEE.*`, `KED.*` (42_escape.md R80, R81). A wire row appends what it
emits to the caller's buffer that the whole operation writes (log 15). -/

namespace Sys2Proof.Machine

/-- `KISS.ESC` of one byte (42_escape.md R80). -/
def escapeByte (b : Byte) : List Byte :=
  if b = Config.delim then [Config.esc, Config.tDelim]
  else if b = Config.esc then [Config.esc, Config.tEsc]
  else [b]

/-- `KISS.ESC` (42_escape.md R80): "each input byte is translated on its own". -/
def escape : List Byte → List Byte
  | [] => []
  | b :: s => escapeByte b ++ escape s

/-- `KISS.UNESC` (42_escape.md R81): a pair is replaced and consumed, any other byte is emitted and consumes itself alone. -/
def unescape : List Byte → List Byte
  | [] => []
  | [b] => [b]
  | b :: c :: e =>
    if b = Config.esc ∧ c = Config.tDelim then Config.delim :: unescape e
    else if b = Config.esc ∧ c = Config.tEsc then Config.esc :: unescape e
    else b :: unescape (c :: e)

/-- R80. -/
def execKissEsc (s : State) : Result := .next { s with escr := escape s.raw }

/-- R81. -/
def execKissUnesc (s : State) : Result := .next { s with raw := unescape s.escr }

/-- U4 emits bytes for one input byte. -/
def emitEscaped (out : List Byte) (s : State) : Result := .next { s with escr := s.escr ++ out }

/-- U5 emits a byte for one input position. -/
def emitUnescaped (b : Byte) (s : State) : Result := .next { s with raw := s.raw ++ [b] }

/-- R80, row KEE.DELIM: the byte `C0` gives `DB DC`. -/
def execKeeDelim (s : State) : Result := emitEscaped [Config.esc, Config.tDelim] s

/-- R80, row KEE.ESC: the byte `DB` gives `DB DD`. -/
def execKeeEsc (s : State) : Result := emitEscaped [Config.esc, Config.tEsc] s

/-- R80, row KEE.LIT: any other byte gives itself. -/
def execKeeLit (b : Byte) (s : State) : Result := emitEscaped [b] s

/-- R81, row KED.PAIR_DELIM: `DB DC` gives `C0`. -/
def execKedPairDelim (s : State) : Result := emitUnescaped Config.delim s

/-- R81, row KED.PAIR_ESC: `DB DD` gives `DB`. -/
def execKedPairEsc (s : State) : Result := emitUnescaped Config.esc s

/-- R81, row KED.LONE: a lone `DB` gives `DB`. -/
def execKedLone (s : State) : Result := emitUnescaped Config.esc s

/-- R81, row KED.LIT: any first byte other than `DB` gives itself. -/
def execKedLit (b : Byte) (s : State) : Result := emitUnescaped b s

end Sys2Proof.Machine
end

