-- ==== Sys2Proof/Machine/Framing.lean ====
section
/-! DEFINITION. The framing codec `FRM.ENC`, `FRM.DEC` (44_framing.md R90, R91) and the frame-position rows (30_encoding.md R43, 20_memory.md R35; log 15). -/

namespace Sys2Proof.Machine

/-- The unescaped region `pay ++ [ck[7:0], ck[15:8]]` (30_encoding.md R44). -/
def unescapedRegion (pay : List Byte) : List Byte := pay ++ leBytes16 (checksum pay)

/-- `FRM.ENC` (44_framing.md R90). -/
def frameEncode (x : Record) : List Byte :=
  [Config.delim, Config.linkType] ++ escape (unescapedRegion (packRecord x)) ++ [Config.delim]

/-- Step 1 of `FRM.DEC`: the framing test (60_exceptions.md R112), the length first (R115). -/
def framingGood (f : List Byte) : Bool :=
  decide (3 ≤ f.length) && f.head? == some Config.delim && f.getLast? == some Config.delim

/-- Step 2 of `FRM.DEC`: the framing bytes and the link-type byte stripped, the remainder `f[2 .. L-1)` unescaped. -/
def strippedRegion (f : List Byte) : List Byte := unescape (slice f 2 (f.length - 1))

/-- The received checksum `{raw[N+1], raw[N]}` (30_encoding.md R48 (c)). -/
def receivedChecksum (N : Nat) (raw : List Byte) : Half := (assemble (raw.drop N)).extractLsb' 0 16

/-- `FRM.DEC` (44_framing.md R91): framing, then length, then checksum; the first test that fails is reported (60_exceptions.md R115). -/
def frameDecode (sch : Schema) (f : List Byte) : FrameResult :=
  if framingGood f then
    let raw := strippedRegion f
    if raw.length = numBytes sch + Config.ckBytes then
      if checksumMatch (raw.take (numBytes sch)) (receivedChecksum (numBytes sch) raw) = 1 then
        .ok (unpackRecord sch (raw.take (numBytes sch)))
      else .err .checksumMismatch
    else .err .lengthMismatch
  else .err .badFraming

/-- An encode of the caller's Record of a packet kind: the frame is returned, nothing else changes (44_framing.md R90; log 7). -/
def encodeAt (k : PacketKind) (s : State) : State := { s with frame := frameEncode (s.recordOf k) }

/-- A decode of the caller's candidate frame against the schema of a packet kind (44_framing.md R91). -/
def decodeAt (k : PacketKind) (s : State) : State := s.deliver k (frameDecode (s.schemaOf k) s.frame)

/-- R90. -/
def execFrmEnc (s : State) : Result := .next (encodeAt s.kind s)

/-- R91. -/
def execFrmDec (s : State) : Result := .next (decodeAt s.kind s)

/-- R43, row FRM.LEAD: on send a fresh frame begins with `C0`; on receive a fresh candidate frame begins with the byte
received, and another byte than `C0` gives `BadFraming` when the frame is decoded (44_framing.md R91 step 1; log 15). -/
def execFrmLead (a : FrameAct) (s : State) : Result :=
  match a with
  | .send => .next { s with frame := [framePosByte .lead] }
  | .receive b => .next { s with frame := [b] }

/-- R43, row FRM.LINK: on send `00` is written; on receive the byte is stored and not examined (log 15). -/
def execFrmLink (a : FrameAct) (s : State) : Result :=
  match a with
  | .send => .next { s with frame := s.frame ++ [framePosByte .link] }
  | .receive b => .next { s with frame := s.frame ++ [b] }

/-- R43, row FRM.TRAIL: on send the frame ends with `C0`; on receive the candidate frame ends with the byte received, and
another byte than `C0` gives `BadFraming` when the frame is decoded (44_framing.md R91 step 1; log 15). -/
def execFrmTrail (a : FrameAct) (s : State) : Result :=
  match a with
  | .send => .next { s with frame := s.frame ++ [framePosByte .trail] }
  | .receive b => .next { s with frame := s.frame ++ [b] }

end Sys2Proof.Machine
end

