-- ==== Sys2Proof/Machine/Concrete.lean ====
section
/-! DEFINITION. The meanings of the concrete schemas' operations and of the command table (45_concrete_schemas.md R96 to R98, R100, R101). -/

namespace Sys2Proof.Machine

/-- R100: `FRM.ENC(r)` with `r.sch = TELEMETRY_SCHEMA`. -/
def execTlmFmt (s : State) : Result := .next (encodeAt .telemetry s)

/-- R97: `FRM.DEC(COMMAND_SCHEMA, f)`. -/
def execCmdParse (s : State) : Result := .next (decodeAt .command s)

/-- R98: `FRM.ENC(r)` with `r.sch = COMMAND_SCHEMA`. -/
def execCmdFmt (s : State) : Result := .next (encodeAt .command s)

/-- R101: `FRM.DEC(TELEMETRY_SCHEMA, f)`. -/
def execTlmParse (s : State) : Result := .next (decodeAt .telemetry s)

/-- R96: `COMMAND_TABLE[name]`, an 8-bit value; a name the table lacks is refused. -/
def execCmdLookup (s : State) : Result :=
  match lookupCommand s.name s.commandTable with
  | none => .refused .unknownCommand
  | some i => .next (s.setValue (.byte i))

end Sys2Proof.Machine
end

