-- ==== Sys2Proof/Machine/FieldTypes.lean ====
section
/-! DEFINITION. The meanings of `PACK.T` and `UNPACK.T` (40_field_types.md R56 to R69). `PACK.T` writes the payload buffer with the bytes it returns and
`UNPACK.T` reads it (10_state.md R27). -/

namespace Sys2Proof.Machine

/-- The bytes of the value port of a FieldType are returned. -/
def packPort (T : FieldType) (s : State) : State := { s with pay := pack (s.vals.get T) }

/-- The register of the operand bytes is returned. -/
def unpackPort (T : FieldType) (s : State) : State := s.setValue (fieldOfBits T s.fieldBytes.bits)

/-- R56: `emit(zext_8(v))`. -/
def execPackBool (s : State) : Result := .next (packPort .bool s)

/-- R57: `emit(v[7:0])`. -/
def execPackByte (s : State) : Result := .next (packPort .byte s)

/-- R58: `emit(v[7:0]); emit(v[15:8])`. -/
def execPackI16 (s : State) : Result := .next (packPort .int16 s)

/-- R59: as R58, for an unsigned register. -/
def execPackU16 (s : State) : Result := .next (packPort .uint16 s)

/-- R60: the four bytes, low byte first. -/
def execPackI32 (s : State) : Result := .next (packPort .int32 s)

/-- R61: the four bytes, low byte first. -/
def execPackU32 (s : State) : Result := .next (packPort .uint32 s)

/-- R62: the four bytes of the pattern, low byte first, no floating-point arithmetic. -/
def execPackF32 (s : State) : Result := .next (packPort .float32 s)

/-- R63: 0 for the byte `00`, 1 for every other. -/
def execUnpackBool (s : State) : Result := .next (unpackPort .bool s)

/-- R64: `v <- b`. -/
def execUnpackByte (s : State) : Result := .next (unpackPort .byte s)

/-- R65: `v <- {b1, b0}`. -/
def execUnpackI16 (s : State) : Result := .next (unpackPort .int16 s)

/-- R66: `v <- {b1, b0}`. -/
def execUnpackU16 (s : State) : Result := .next (unpackPort .uint16 s)

/-- R67: `v <- {b3, b2, b1, b0}`. -/
def execUnpackI32 (s : State) : Result := .next (unpackPort .int32 s)

/-- R68: `v <- {b3, b2, b1, b0}`. -/
def execUnpackU32 (s : State) : Result := .next (unpackPort .uint32 s)

/-- R69: `v <- {b3, b2, b1, b0}`, every pattern kept bit for bit. -/
def execUnpackF32 (s : State) : Result := .next (unpackPort .float32 s)

end Sys2Proof.Machine
end

