-- ==== Sys2Proof/Machine/Records.lean ====
section
/-! DEFINITION. The meanings of the schema queries, the Record operations and the schema codec (41_packet_schema.md R71 to R77). -/

namespace Sys2Proof.Machine

/-- R71: `N`, the sum of the widths. -/
def execSchNumbytes (s : State) : Result := .next { s with count := numBytes (s.schemaOf s.kind) }

/-- R72: `sch.off[i]`; `i > sch.n` is refused. -/
def execSchOffset (s : State) : Result :=
  if s.idx ≤ (s.schemaOf s.kind).length then .next { s with count := offset (s.schemaOf s.kind) s.idx } else .refused .badIndex

/-- R73: a new Record of the schema. -/
def execRecNew (s : State) : Result := .next (s.freshRecord s.kind (newRecord (s.schemaOf s.kind)))

/-- R74: `x[i] <- v`; an index outside the Record is refused, and so is the write of a Record that is lent (70_reset_and_hazards.md R131,
93_implementation_defined.md I14). -/
def execRecSet (s : State) : Result :=
  match (s.recordOf s.kind)[s.idx]? with
  | none => .refused .badIndex
  | some old =>
    if s.lent s.kind then .refused .recordLent
    else .next (s.setRecord s.kind ((s.recordOf s.kind).set s.idx (s.vals.get old.type)))

/-- R75: `return x[i]`; an index outside the Record is refused. -/
def execRecGet (s : State) : Result :=
  match (s.recordOf s.kind)[s.idx]? with
  | none => .refused .badIndex
  | some v => .next (s.setValue v)

/-- R76: the fields packed in schema order. -/
def execSchEncode (s : State) : Result := .next { s with pay := packRecord (s.recordOf s.kind) }

/-- R77: the fields unpacked in schema order into a fresh Record; other than `sch.N` bytes is refused. -/
def execSchDecode (s : State) : Result :=
  if s.pay.length = numBytes (s.schemaOf s.kind) then .next (s.freshRecord s.kind (unpackRecord (s.schemaOf s.kind) s.pay))
  else .refused .badLength

end Sys2Proof.Machine
end

