-- ==== Sys2Proof/Machine/Dispatch.lean ====
section
/-! DEFINITION. One arm per instruction. -/

namespace Sys2Proof.Machine

def exec (i : Instr) (s : State) : Host.Outcome State Fault Refusal :=
  match i with
  | .packBool => Sys2Proof.Machine.execPackBool s
  | .packByte => Sys2Proof.Machine.execPackByte s
  | .packI16 => Sys2Proof.Machine.execPackI16 s
  | .packU16 => Sys2Proof.Machine.execPackU16 s
  | .packI32 => Sys2Proof.Machine.execPackI32 s
  | .packU32 => Sys2Proof.Machine.execPackU32 s
  | .packF32 => Sys2Proof.Machine.execPackF32 s
  | .unpackBool => Sys2Proof.Machine.execUnpackBool s
  | .unpackByte => Sys2Proof.Machine.execUnpackByte s
  | .unpackI16 => Sys2Proof.Machine.execUnpackI16 s
  | .unpackU16 => Sys2Proof.Machine.execUnpackU16 s
  | .unpackI32 => Sys2Proof.Machine.execUnpackI32 s
  | .unpackU32 => Sys2Proof.Machine.execUnpackU32 s
  | .unpackF32 => Sys2Proof.Machine.execUnpackF32 s
  | .schNumbytes => Sys2Proof.Machine.execSchNumbytes s
  | .schOffset => Sys2Proof.Machine.execSchOffset s
  | .recNew => Sys2Proof.Machine.execRecNew s
  | .recSet => Sys2Proof.Machine.execRecSet s
  | .recGet => Sys2Proof.Machine.execRecGet s
  | .schEncode => Sys2Proof.Machine.execSchEncode s
  | .schDecode => Sys2Proof.Machine.execSchDecode s
  | .csumGen => Sys2Proof.Machine.execCsumGen s
  | .csumVfy => Sys2Proof.Machine.execCsumVfy s
  | .kissEsc => Sys2Proof.Machine.execKissEsc s
  | .kissUnesc => Sys2Proof.Machine.execKissUnesc s
  | .tlmFmt => Sys2Proof.Machine.execTlmFmt s
  | .cmdParse => Sys2Proof.Machine.execCmdParse s
  | .frmEnc => Sys2Proof.Machine.execFrmEnc s
  | .frmDec => Sys2Proof.Machine.execFrmDec s
  | .cmdFmt => Sys2Proof.Machine.execCmdFmt s
  | .tlmParse => Sys2Proof.Machine.execTlmParse s
  | .accPressure => Sys2Proof.Machine.execAccPressure s
  | .accAltitude => Sys2Proof.Machine.execAccAltitude s
  | .accSpeed => Sys2Proof.Machine.execAccSpeed s
  | .accLat => Sys2Proof.Machine.execAccLat s
  | .accLon => Sys2Proof.Machine.execAccLon s
  | .accResettime => Sys2Proof.Machine.execAccResettime s
  | .accDataage => Sys2Proof.Machine.execAccDataage s
  | .accRelay => Sys2Proof.Machine.execAccRelay s
  | .cmdLookup => Sys2Proof.Machine.execCmdLookup s
  | .keeDelim => Sys2Proof.Machine.execKeeDelim s
  | .keeEsc => Sys2Proof.Machine.execKeeEsc s
  | .keeLit b => Sys2Proof.Machine.execKeeLit b s
  | .kedPairDelim => Sys2Proof.Machine.execKedPairDelim s
  | .kedPairEsc => Sys2Proof.Machine.execKedPairEsc s
  | .kedLone => Sys2Proof.Machine.execKedLone s
  | .kedLit b => Sys2Proof.Machine.execKedLit b s
  | .frmLead a => Sys2Proof.Machine.execFrmLead a s
  | .frmLink a => Sys2Proof.Machine.execFrmLink a s
  | .frmTrail a => Sys2Proof.Machine.execFrmTrail a s

end Sys2Proof.Machine
end

