-- ==== Sys2Proof/Machine/Units.lean ====
section
/-! DEFINITION. The level S realisation of the eight units: `Start`, `Byte(b)`, `End` and the steps of the units that run on their own
(41_packet_schema.md R78, 42_escape.md R82, 43_checksum.md R88, 44_framing.md R93). `Start` is the reset of a unit (70_reset_and_hazards.md R124);
after `End` a unit "is in the same condition as one that has never run" (R124). The end of a call returns what the level T operation returns. -/

namespace Sys2Proof.Machine

/-- U0 `Start`: the Record is lent, the cursors are 0 (41_packet_schema.md R78). -/
def U0.start (k : PacketKind) (x : Record) : U0 := { active := true, kind := k, record := x, fi := 0, bi := 0, pay := [] }

/-- The cursors after a byte of a field of width `w` (41_packet_schema.md R78). -/
def advance (w fi : Nat) (bi : BitVec 2) : Nat × BitVec 2 := if bi.toNat + 1 = w then (fi + 1, 0) else (fi, bi + 1)

/-- A step of U0 while `fi < sch.n`: the byte emitted and the unit after it; none when `fi = sch.n` (41_packet_schema.md R78). -/
def U0.next (u : U0) : Option (Byte × U0) :=
  match u.record[u.fi]? with
  | none => none
  | some v =>
    let b := fieldByte v u.bi
    let c := advance v.type.width u.fi u.bi
    some (b, { u with fi := c.1, bi := c.2, pay := u.pay ++ [b] })

/-- U1 `Start`: the shadow set is all zero (10_state.md R24, 41_packet_schema.md R78). -/
def U1.start (k : PacketKind) (sch : Schema) : U1 :=
  { active := true, kind := k, sch := sch, fi := 0, bi := 0, sh := 0, xs := sch.map FieldType.zero }

/-- `sh[8*bi+7 : 8*bi] <- b` (41_packet_schema.md R78). -/
def setShiftByte (sh : Word) (bi : BitVec 2) (b : Byte) : Word :=
  (sh &&& ~~~((0xFF : Word) <<< (8 * bi.toNat))) ||| (b.setWidth 32 <<< (8 * bi.toNat))

/-- U1 `Byte(b)`: none when `fi = sch.n`, which is `refuse(bad_length)` (41_packet_schema.md R78). -/
def U1.byte (u : U1) (b : Byte) : Option U1 :=
  match u.sch[u.fi]? with
  | none => none
  | some T =>
    let sh := setShiftByte u.sh u.bi b
    let c := advance T.width u.fi u.bi
    if u.bi.toNat + 1 = T.width then some { u with fi := c.1, bi := c.2, sh := 0, xs := u.xs.set u.fi (fieldOfBits T sh) }
    else some { u with fi := c.1, bi := c.2, sh := sh }

/-- U1 `End` requires `fi = sch.n` and `bi = 0` (41_packet_schema.md R78). -/
def U1.complete (u : U1) : Bool := u.fi == u.sch.length && u.bi == 0

/-- U2 `Start` (43_checksum.md R88). -/
def U2.start : U2 := { active := true, acc := 0, phase := false }

/-- U2 `Byte(b)`: a low byte, then the high byte of the same word (43_checksum.md R88). -/
def U2.byte (u : U2) (b : Byte) : U2 :=
  { u with acc := u.acc + (if u.phase then b ++ (0 : Byte) else (0 : Byte) ++ b), phase := !u.phase }

/-- U2 `End`: `ck <- ~acc` (43_checksum.md R88). -/
def U2.check (u : U2) : Half := ~~~u.acc

/-- U3 `Start`: the received checksum is supplied with the call (10_state.md R24, 43_checksum.md R88). -/
def U3.start (rxck : Half) : U3 := { sum := U2.start, rxck := rxck }

/-- U3 `Byte(b)`: as U2 (43_checksum.md R88). -/
def U3.byte (u : U3) (b : Byte) : U3 := { u with sum := u.sum.byte b }

/-- U3 `End`: `match <- (~acc == rxck)` (43_checksum.md R88). -/
def U3.check (u : U3) : Bit := if u.sum.check = u.rxck then 1 else 0

/-- The bytes U4 emits for a byte: those of the `WIRE8` row it decodes to (42_escape.md R80, R82). -/
def U4.emitted (b : Byte) : List Byte :=
  match decodeWire8 b with
  | .keeDelim => [Config.esc, Config.tDelim]
  | .keeEsc => [Config.esc, Config.tEsc]
  | _ => [b]

/-- U4 `Byte(b)` (42_escape.md R82). -/
def U4.byte (u : U4) (b : Byte) : U4 := { u with escr := u.escr ++ U4.emitted b }

/-- U5 `Start` (42_escape.md R82). -/
def U5.start : U5 := { active := true, escPend := false, raw := [] }

/-- The bytes U5 emits for a byte, and the escape-pending flag after it (42_escape.md R82). -/
def U5.emitted (pend : Bool) (b : Byte) : List Byte × Bool :=
  if pend then
    if b = Config.tDelim then ([Config.delim], false)
    else if b = Config.tEsc then ([Config.esc], false)
    else if b = Config.esc then ([Config.esc], true)
    else ([Config.esc, b], false)
  else if b = Config.esc then ([], true)
  else ([b], false)

/-- U5 `Byte(b)` (42_escape.md R82). -/
def U5.byte (u : U5) (b : Byte) : U5 :=
  let e := U5.emitted u.escPend b
  { u with escPend := e.2, raw := u.raw ++ e.1 }

/-- The bytes U5 emits at `End`: a lone ESC at the end of the region (42_escape.md R82). -/
def U5.flush (u : U5) : List Byte := if u.escPend then [Config.esc] else []

/-- U5 `End`: the bytes of the whole call. -/
def U5.output (u : U5) : List Byte := u.raw ++ u.flush

/-- U6 `Start`: stage `LEAD` (44_framing.md R93). -/
def U6.start (k : PacketKind) (x : Record) : U6 :=
  { active := true, kind := k, stage := .lead, u0 := U0.start k x, u2 := U2.start, frame := [] }

/-- A step of U6: the action of its stage (44_framing.md R93). In `BODY` one byte of U0 is summed and escaped, and when U0 is at its end the stage is left. -/
def U6.next (u : U6) : U6 :=
  match u.stage with
  | .lead => { u with stage := .link, frame := u.frame ++ [Config.delim] }
  | .link => { u with stage := .body, frame := u.frame ++ [Config.linkType] }
  | .body =>
    match u.u0.next with
    | some (p, u0) => { u with u0 := u0, u2 := u.u2.byte p, frame := u.frame ++ U4.emitted p }
    | none => { u with stage := .ckLo }
  | .ckLo => { u with stage := .ckHi, frame := u.frame ++ U4.emitted (u.u2.check.extractLsb' 0 8) }
  | .ckHi => { u with stage := .trail, frame := u.frame ++ U4.emitted (u.u2.check.extractLsb' 8 8) }
  | .trail => { u with stage := .done, frame := u.frame ++ [Config.delim] }
  | .done => u

/-- U7 `Start`: the buffer is empty, the contained units start with it (44_framing.md R93, 70_reset_and_hazards.md R124). DESIGN CHOICE: the `rxck` of
its U3 is 0 until the two bytes of the received checksum are assembled; no outcome depends on it (log 10). -/
def U7.start (k : PacketKind) (sch : Schema) : U7 :=
  { active := true, kind := k, sch := sch, rxbuf := [], rxlen := 0, cnt := 0, u5 := U5.start, u1 := U1.start k sch, u3 := U3.start 0 }

/-- U7 `Byte(b)`: the candidate frame is stored (44_framing.md R93). -/
def U7.byte (u : U7) (b : Byte) : U7 := { u with rxbuf := u.rxbuf ++ [b], rxlen := u.rxlen + 1 }

/-- U7 takes one unescaped byte: the first `N` go to U1 and U3, the next two are the received checksum, and each is counted (44_framing.md R93). -/
def U7.take (u : U7) (b : Byte) : U7 :=
  let N := numBytes u.sch
  if u.cnt < N then { u with cnt := u.cnt + 1, u1 := (u.u1.byte b).getD u.u1, u3 := u.u3.byte b }
  else if u.cnt = N then { u with cnt := u.cnt + 1, u3 := { u.u3 with rxck := u.u3.rxck.extractLsb' 8 8 ++ b } }
  else if u.cnt = N + 1 then { u with cnt := u.cnt + 1, u3 := { u.u3 with rxck := b ++ u.u3.rxck.extractLsb' 0 8 } }
  else { u with cnt := u.cnt + 1 }

/-- U7 feeds one byte of `rxbuf[2 .. rxlen-1)` to its U5 and takes what U5 emits (44_framing.md R93). -/
def U7.feed (u : U7) (b : Byte) : U7 := (U5.emitted u.u5.escPend b).1.foldl U7.take { u with u5 := u.u5.byte b }

/-- U7 after the whole region has passed through its U5, U1 and U3 (44_framing.md R93). -/
def U7.drain (u : U7) : U7 :=
  let d := (slice u.rxbuf 2 (u.rxlen - 1)).foldl U7.feed u
  d.u5.flush.foldl U7.take d

/-- U7 `End`: the outcome (44_framing.md R93). -/
def U7.outcome (u : U7) : FrameResult :=
  if 3 ≤ u.rxlen ∧ u.rxbuf.head? = some Config.delim ∧ u.rxbuf[u.rxlen - 1]? = some Config.delim then
    let d := u.drain
    if d.cnt = numBytes u.sch + Config.ckBytes then
      if d.u3.check = 1 then .ok d.u1.xs else .err .checksumMismatch
    else .err .lengthMismatch
  else .err .badFraming

/-- `Start` of a unit that runs on its own: it borrows the caller's Record, U0 that of the selected packet kind (20_memory.md R41), U6 the Telemetry Record
(00_scope.md R2). -/
def startRun (u : RunUnit) (s : State) : Result :=
  match u with
  | .u0 => .next { s with u0 := U0.start s.kind (s.recordOf s.kind), loanU0 := true }
  | .u6 => .next { s with u6 := U6.start .telemetry (s.recordOf .telemetry), loanU6 := true }

/-- U0 in a call after its next step: one byte is emitted, or, when every field is packed, the call ends: the payload is returned and the Record is lent
no longer (41_packet_schema.md R78, 20_memory.md R41). -/
def State.advanceU0 (s : State) : State :=
  match s.u0.next with
  | some (_, u) => { s with u0 := u }
  | none => { s with pay := s.u0.pay, u0 := U0.idle, loanU0 := false }

/-- U6 in a call after its next step: the action of its stage, or, in stage `DONE`, the end of the call: the frame is returned and the Record is lent no
longer (44_framing.md R93, 70_reset_and_hazards.md R136, 20_memory.md R41). -/
def State.advanceU6 (s : State) : State :=
  if s.u6.stage = .done then { s with frame := s.u6.frame, u6 := U6.idle, loanU6 := false } else { s with u6 := s.u6.next }

/-- U0 runs on: a call in progress takes its next step, outside a call the unit stands still. -/
def State.runU0 (s : State) : State := if s.u0.active then s.advanceU0 else s

/-- U6 runs on: a call in progress takes its next step, outside a call the unit stands still. -/
def State.runU6 (s : State) : State := if s.u6.active then s.advanceU6 else s

/-- The calls of U0 and U6 in progress each take their next step on their own, for "no call waits for anything" (70_reset_and_hazards.md R136). -/
def State.runUnits (s : State) : State := s.runU0.runU6

/-- A step of U0 that the caller lets pass before its next interaction. -/
def tickU0 (s : State) : Result := if s.u0.active then .next s.advanceU0 else .refused .outsideCall

/-- A step of U6 that the caller lets pass before its next interaction. -/
def tickU6 (s : State) : Result := if s.u6.active then .next s.advanceU6 else .refused .outsideCall

/-- A step of a unit that runs on its own, between two interactions of the caller. DESIGN CHOICE: the spec gives no order between the steps of a call in
progress and the caller's interactions; the caller's line says how many steps pass between two of them, and when the line is empty the units run on by
themselves (log 25). -/
def tick (u : RunUnit) (s : State) : Result :=
  match u with
  | .u0 => tickU0 s
  | .u6 => tickU6 s

/-- `Start` of a unit that receives bytes, with its operand read once (20_memory.md R38 (b)); U7 works against `COMMAND_SCHEMA`
(00_scope.md R2, 92_eei_decisions.md D12). -/
def startUnit (u : ByteUnit) (s : State) : Result :=
  match u with
  | .u1 => .next { s with u1 := U1.start s.kind (s.schemaOf s.kind) }
  | .u2 => .next { s with u2 := U2.start }
  | .u3 => .next { s with u3 := U3.start s.rxck }
  | .u4 => .next { s with u4 := U4.idle }
  | .u5 => .next { s with u5 := U5.start }
  | .u7 => .next { s with u7 := U7.start .command commandSchema }

/-- A unit is between `Start` and `End`; U4 has no state and is always ready (42_escape.md R82). -/
def inCall (u : ByteUnit) (s : State) : Bool :=
  match u with
  | .u1 => s.u1.active
  | .u2 => s.u2.active
  | .u3 => s.u3.sum.active
  | .u4 => true
  | .u5 => s.u5.active
  | .u7 => s.u7.active

/-- `Byte(b)` of U1, refused when every field has been received (41_packet_schema.md R78). -/
def byteU1 (b : Byte) (s : State) : Result :=
  match s.u1.byte b with
  | none => .refused .badLength
  | some u => .next { s with u1 := u }

/-- `Byte(b)` of a unit in a call. -/
def byteUnit (u : ByteUnit) (b : Byte) (s : State) : Result :=
  if inCall u s then
    match u with
    | .u1 => byteU1 b s
    | .u2 => .next { s with u2 := s.u2.byte b }
    | .u3 => .next { s with u3 := s.u3.byte b }
    | .u4 => .next { s with u4 := s.u4.byte b }
    | .u5 => .next { s with u5 := s.u5.byte b }
    | .u7 => .next { s with u7 := s.u7.byte b }
  else .refused .outsideCall

/-- `End` of U1: the shadow set is delivered as the fresh Record, refused when fields are missing (41_packet_schema.md R78). -/
def finishU1 (s : State) : Result :=
  if s.u1.complete then .next { s.freshRecord s.u1.kind s.u1.xs with u1 := U1.idle } else .refused .badLength

/-- `End` of a unit in a call: its result is returned and the unit is as one that has never run. -/
def finishUnit (u : ByteUnit) (s : State) : Result :=
  if inCall u s then
    match u with
    | .u1 => finishU1 s
    | .u2 => .next { s with ck := s.u2.check, u2 := U2.idle }
    | .u3 => .next { s with matched := some s.u3.check, u3 := U3.idle }
    | .u4 => .next { s with escr := s.u4.escr, u4 := U4.idle }
    | .u5 => .next { s with raw := s.u5.output, u5 := U5.idle }
    | .u7 => .next { s.deliver s.u7.kind s.u7.outcome with u7 := U7.idle }
  else .refused .outsideCall

end Sys2Proof.Machine
end

