-- ==== Sys2Proof/Machine/Caller.lean ====
section
/-! DEFINITION. What the caller may do (70_reset_and_hazards.md R127, R128): issue operations and wire bytes, hand over operands, take results, drive a unit at level S. -/

namespace Sys2Proof.Machine

/-- The interactions still to be performed after one instruction of a run of bytes: the rest of the run first (log 1). -/
def continueFetch (f : Format) (rest : List Byte) (pending : List Interaction) : List Interaction :=
  match rest with
  | [] => pending
  | _ :: _ => .fetch f rest :: pending

/-- An instruction runs and the bytes after it are fetched next. An operation number that is not assigned is refused (30_encoding.md R49 (h)).
DESIGN CHOICE: so is, under a name of its own, a fetch on send of a byte the block does not write at that frame position (log 26). -/
def runDecoded (f : Format) (d : Decoded) (s : State) : Result :=
  match d with
  | .instr i rest => exec i { s with pending := continueFetch f rest s.pending }
  | .reject .empty => .next s
  | .reject (.unassigned _) => .refused .unassigned
  | .reject (.notWritten _) => .refused .notWritten

/-- The caller hands over a Record for a packet kind: its values are of the types of the schema, or it is refused (60_exceptions.md R119 `bad_arity`). -/
def handRecord (x : Record) (s : State) : Result :=
  if schemaOfRecord x = s.schemaOf s.kind then .next (s.freshRecord s.kind x) else .refused .badArity

/-- The caller constructs a schema from its tags (70_reset_and_hazards.md R127 (1)); tag 7 is refused (60_exceptions.md R119 `unassigned`). -/
def handSchema (tags : List (BitVec 3)) (s : State) : Result :=
  match schemaOfTags tags with
  | none => .refused .unassigned
  | some sch => .next { s with sch := sch }

/-- A named field stands for its index in the schema (30_encoding.md R52); a name the schema lacks is refused. -/
def handField (n : FieldName) (s : State) : Result :=
  match fieldIndex n (s.layoutOf s.kind) with
  | none => .refused .badIndex
  | some i => .next { s with idx := i }

/-- A number enters a register through `enc_T`; one outside the domain is refused (40_field_types.md R55). -/
def handNumber (T : FieldType) (z : Number) (s : State) : Result :=
  match encNumber T z with
  | none => .refused .outOfDomain
  | some v => .next (s.setValue v)

/-- One interaction of the caller with the block. -/
def interact (it : Interaction) (s : State) : Result :=
  match it with
  | .fetch f bytes => runDecoded f (decode f bytes) s
  | .handSchema tags => handSchema tags s
  | .handKind k => .next { s with kind := k }
  | .handRecord x => handRecord x s
  | .handIndex i => .next { s with idx := i }
  | .handField n => handField n s
  | .handValue v => .next (s.setValue v)
  | .handNumber T z => handNumber T z s
  | .handFieldBytes b => .next { s with fbytes := b }
  | .handBuffer n bytes => .next (s.setBuffer n bytes)
  | .handChecksum rxck => .next { s with rxck := rxck }
  | .handFix g => .next { s with fix := g }
  | .handRelay k => .next { s with relay := k }
  | .handName n => .next { s with name := n }
  | .takeStatus => .next { s with status := none }
  | .takeMatch => .next { s with matched := none }
  | .startRun u => startRun u s
  | .tick u => tick u s
  | .start u => startUnit u s
  | .byte u b => byteUnit u b s
  | .finish u => finishUnit u s

/-- The caller issues an instruction of a table word before its other interactions; a word that is of no format changes nothing (log 3). -/
def issueWord (nbits w : Nat) (pending : List Interaction) : List Interaction :=
  match tableWordBytes nbits w with
  | none => pending
  | some (f, bs) => .fetch f bs :: pending

/-- The caller performs its next interaction. With none lined up the calls of U0 and U6 in progress run on (70_reset_and_hazards.md R136; log 25), and
without such a call nothing happens (log 16). -/
def performNext (s : State) : Result :=
  match s.pending with
  | [] => .next s.runUnits
  | it :: rest => interact it { s with pending := rest }

end Sys2Proof.Machine
end

