-- ==== Sys2Proof/Machine/Step.lean ====
section
/-! DEFINITION. One step: the caller's next interaction, or, with none lined up, the next step of the calls in progress. -/

namespace Sys2Proof.Machine

/-- One step of the machine (20_memory.md R38: one caller's calls take effect in the order they are issued). -/
def step (s : State) : Host.Outcome State Fault Refusal := performNext s

/-- The state with the instruction of a table word lined up as the caller's next interaction. -/
def State.withFetchWord (s : State) (nbits w : Nat) : State := { s with pending := issueWord nbits w s.pending }

end Sys2Proof.Machine
end

