-- ==== Sys2Proof/Safety.lean ====
section
/-! DEFINITION. What holds of every state a run reaches, and the terms the statements use. -/

namespace Sys2Proof.Machine

/-- An operation number decodes to the operation (30_encoding.md R47). -/
def isOperation (op : Byte) (i : Instr) : Prop := decode .op6 [op] = .instr i []

/-- U0 in a call: the cursors stand inside the Record, and what has been emitted is the payload up to them (10_state.md R17, 41_packet_schema.md R78). -/
def U0.consistent (u : U0) : Bool :=
  match u.record[u.fi]? with
  | some v => decide (u.bi.toNat < v.type.width) && u.pay == packRecord (u.record.take u.fi) ++ (pack v).take u.bi.toNat
  | none => u.fi == u.record.length && u.bi == 0 && u.pay == packRecord u.record

/-- U1 in a call: the cursors stand inside the schema, the shadow set has the schema's types, and the shift register holds `bi` bytes
(10_state.md R17, R24; 41_packet_schema.md R78). -/
def U1.consistent (u : U1) : Bool :=
  schemaOfRecord u.xs == u.sch && u.sh >>> (8 * u.bi.toNat) == 0 &&
    match u.sch[u.fi]? with
    | some T => decide (u.bi.toNat < T.width)
    | none => u.fi == u.sch.length && u.bi == 0

/-- The bytes U6 has emitted when it leaves `BODY` having packed `pay` (44_framing.md R93). -/
def frameBody (pay : List Byte) : List Byte := [Config.delim, Config.linkType] ++ escape pay

/-- U6 in a call: its U0 is consistent, its U2 holds the word sum of the payload emitted so far, and what has been emitted belongs to the stage
(44_framing.md R93). -/
def U6.consistent (u : U6) : Bool :=
  u.u0.consistent && u.u2.acc == wordSum u.u0.pay && u.u2.phase == decide (u.u0.pay.length % 2 = 1) &&
    match u.stage with
    | .lead => u.frame == [] && u.u0.pay == [] && u.u0.fi == 0
    | .link => u.frame == [Config.delim] && u.u0.pay == [] && u.u0.fi == 0
    | .body => u.frame == frameBody u.u0.pay
    | .ckLo => u.u0.fi == u.u0.record.length && u.frame == frameBody u.u0.pay
    | .ckHi => u.u0.fi == u.u0.record.length && u.frame == frameBody (u.u0.pay ++ [(checksum u.u0.pay).extractLsb' 0 8])
    | .trail => u.u0.fi == u.u0.record.length && u.frame == frameBody (unescapedRegion u.u0.pay)
    | .done => u.u0.fi == u.u0.record.length && u.frame == frameEncode u.u0.record

/-- U7 in a call: `rxlen` counts the stored bytes, and the contained units are as `Start` left them (44_framing.md R93). -/
def U7.consistent (u : U7) : Bool :=
  u.rxlen == u.rxbuf.length && u.cnt == 0 && u.u5 == U5.start && u.u1 == U1.start u.kind u.sch && u.u3 == U3.start 0

/-- A decoder's schema is that of its packet kind; the generic schema is whatever was handed over (20_memory.md R40). -/
def schemaOfCall (s : State) (k : PacketKind) (sch : Schema) : Bool :=
  match k with
  | .generic => true
  | .command => sch == s.schemaOf .command
  | .telemetry => sch == s.schemaOf .telemetry

/-- The number a binary32 datum stands for, none for an infinity or a NaN (93_implementation_defined.md G1; log 12). -/
def binary32Value (w : Word) : Option Rat :=
  let sign : Rat := if w.getLsbD 31 then -1 else 1
  let e := (w.extractLsb' 23 8).toNat
  let f := (w.extractLsb' 0 23).toNat
  if e = 255 then none
  else if e = 0 then some (sign * f * 2 ^ (-149 : Int))
  else some (sign * (2 ^ 23 + f : Nat) * 2 ^ ((e : Int) - 150))

/-- A register stands for a number (40_field_types.md R55): a Float32 for its datum, and for the rational that the datum equals. -/
def FieldValue.standsFor (v : FieldValue) (z : Number) : Prop :=
  valNumber v = z ∨ ∃ w q, v = .float32 w ∧ z = .rational q ∧ binary32Value w = some q

/-- The caller's Records of the concrete kinds have the types of their schemas (10_state.md R16, 70_reset_and_hazards.md R132). -/
def State.recordsTyped (s : State) : Bool :=
  schemaOfRecord s.cmdRec == s.schemaOf .command && schemaOfRecord s.tlmRec == s.schemaOf .telemetry

/-- Every unit is consistent in a call, and outside a call "in the same condition as one that has never run" (70_reset_and_hazards.md R124). -/
def State.unitsConsistent (s : State) : Bool :=
  (if s.u0.active then s.u0.consistent else s.u0 == U0.idle) &&
  (if s.u1.active then s.u1.consistent && schemaOfCall s s.u1.kind s.u1.sch else s.u1 == U1.idle) &&
  (s.u2.active || s.u2 == U2.idle) &&
  (s.u3.sum.active || s.u3 == U3.idle) &&
  (s.u5.active || s.u5 == U5.idle) &&
  (if s.u6.active then s.u6.consistent && s.u6.kind == .telemetry else s.u6 == U6.idle) &&
  (if s.u7.active then s.u7.consistent && s.u7.kind == .command && s.u7.sch == commandSchema else s.u7 == U7.idle)

/-- A Record on loan is as it was when the call borrowed it: the unit is in a call, and the caller's Record of its kind is the one it borrowed
(20_memory.md R41, 70_reset_and_hazards.md R131). -/
def State.loansKept (s : State) : Bool :=
  (!s.loanU0 || (s.u0.active && s.u0.record == s.recordOf s.u0.kind)) &&
  (!s.loanU6 || (s.u6.active && s.u6.u0.record == s.recordOf s.u6.kind))

/-- The configuration is one the spec admits (45_concrete_schemas.md R99, 10_state.md R19). -/
def State.configAdmissible (s : State) : Bool := s.tlmLayout.admissible && commandTableInjective s.commandTable

/-- The invariant of the machine. -/
def State.inv (s : State) : Bool := s.recordsTyped && s.unitsConsistent && s.loansKept && s.configAdmissible

/-- `k` steps, stopping at the first refusal: the host's run of `Sys2Proof.core`, over the model's own names. -/
def stepTimes : Nat → State → Result
  | 0, s => .next s
  | k + 1, s =>
    match step s with
    | .next t => stepTimes k t
    | .fault r => .fault r
    | .refused r => .refused r

/-- The state that `k` steps end in, the caller performing the given interactions from `s`. -/
def runsTo (s : State) (k : Nat) (its : List Interaction) (t : State) : Prop := stepTimes k { s with pending := its } = .next t

/-- The bytes of a Bool field that an encode writes: `00` stays, every other byte comes back as `01` (41_packet_schema.md R79 (c)). -/
def normalField (T : FieldType) (bs : List Byte) : List Byte :=
  match T with
  | .bool => bs.map fun b => if b = 0 then 0 else 1
  | _ => bs

/-- The payload with every Bool field's byte as an encode writes it (41_packet_schema.md R79 (c)). -/
def normalPayload : Schema → List Byte → List Byte
  | [], _ => []
  | T :: sch, bs => normalField T (bs.take T.width) ++ normalPayload sch (bs.drop T.width)

/-- An escaped region with no `DELIM` in which every `ESC` begins a pair (42_escape.md R83 (b), (d)). -/
def properlyEscaped : List Byte → Bool
  | [] => true
  | [b] => b != Config.delim && b != Config.esc
  | b :: c :: e =>
    if b = Config.esc then (c == Config.tDelim || c == Config.tEsc) && properlyEscaped e
    else b != Config.delim && properlyEscaped (c :: e)

/-- One bit of one byte of a frame is flipped (44_framing.md R94 (g)). -/
def flipBit (f : List Byte) (j : Nat) (t : Nat) : List Byte := f.modify j fun b => b ^^^ (1 <<< t)

/-- The packet kind an operation that decodes a frame works on, absent for every other instruction (44_framing.md R91, 45_concrete_schemas.md R97, R101). -/
def decoderKind (i : Instr) (s : State) : Option PacketKind :=
  match i with
  | .frmDec => some s.kind
  | .cmdParse => some .command
  | .tlmParse => some .telemetry
  | _ => none

/-- The framing test of a candidate frame fails (60_exceptions.md R112). -/
def framingFails (f : List Byte) : Prop := f.length < 3 ∨ f[0]? ≠ some 0xC0 ∨ f[f.length - 1]? ≠ some 0xC0

/-- The unescaped region of a candidate frame, as `KISS.UNESC` returns it of `f[2 .. L-1)` (44_framing.md R91 step 2). -/
def regionOf (f : List Byte) : List Byte := unescape (slice f 2 (f.length - 1))

/-- Every operand that is not also a result, the configuration and the line of interactions are the same: what no operation writes (10_state.md R25, R27).
The value ports `v` and the buffers are both operands and results. -/
def sameOperands (s t : State) : Prop :=
  t.sch = s.sch ∧ t.tlmLayout = s.tlmLayout ∧ t.commandTable = s.commandTable ∧ t.kind = s.kind ∧ t.idx = s.idx ∧ t.fix = s.fix ∧
    t.relay = s.relay ∧ t.name = s.name ∧ t.fbytes = s.fbytes ∧ t.rxck = s.rxck ∧ t.pending = s.pending

/-- Every level S register is the same (10_state.md R24). -/
def sameUnits (s t : State) : Prop :=
  t.u0 = s.u0 ∧ t.u1 = s.u1 ∧ t.u2 = s.u2 ∧ t.u3 = s.u3 ∧ t.u4 = s.u4 ∧ t.u5 = s.u5 ∧ t.u6 = s.u6 ∧ t.u7 = s.u7

/-- The three Records the caller holds are the same (10_state.md R15). -/
def sameRecords (s t : State) : Prop := t.cmdRec = s.cmdRec ∧ t.tlmRec = s.tlmRec ∧ t.genRec = s.genRec

end Sys2Proof.Machine
end

