-- ==== Sys2Proof/Certificates/Slice0/Obligations.lean ====
section
/-! DEFINITION. The statements for the provers, each from the rules of spec/ its docstring names. -/

open Sys2Proof Sys2Proof.Machine

/-- 40_field_types.md R56 to R61: each `PACK` of a Bool, Byte or integer register returns its bytes, low byte first, and changes nothing else. -/
def Obligations.PackIntegersEmitLittleEndian : Prop :=
  ∀ s : State,
    (isOperation 0x00 .packBool ∧ exec .packBool s = .next { s with pay := [s.vals.bool.setWidth 8] }) ∧
    (isOperation 0x01 .packByte ∧ exec .packByte s = .next { s with pay := [s.vals.byte] }) ∧
    (isOperation 0x02 .packI16 ∧
      exec .packI16 s = .next { s with pay := [s.vals.int16.extractLsb' 0 8, s.vals.int16.extractLsb' 8 8] }) ∧
    (isOperation 0x03 .packU16 ∧
      exec .packU16 s = .next { s with pay := [s.vals.uint16.extractLsb' 0 8, s.vals.uint16.extractLsb' 8 8] }) ∧
    (isOperation 0x04 .packI32 ∧
      exec .packI32 s = .next { s with pay := [s.vals.int32.extractLsb' 0 8, s.vals.int32.extractLsb' 8 8, s.vals.int32.extractLsb' 16 8,
        s.vals.int32.extractLsb' 24 8] }) ∧
    (isOperation 0x05 .packU32 ∧
      exec .packU32 s = .next { s with pay := [s.vals.uint32.extractLsb' 0 8, s.vals.uint32.extractLsb' 8 8, s.vals.uint32.extractLsb' 16 8,
        s.vals.uint32.extractLsb' 24 8] })

/-- 40_field_types.md R64 to R68: each `UNPACK` of a Byte or integer reads its bytes `b0, b1, ..` from the payload in buffer order, returns `{.., b1,
b0}` in the register of its type and changes nothing else. -/
def Obligations.UnpackIntegersAssembleLittleEndian : Prop :=
  ∀ (s : State) (b0 b1 b2 b3 : Byte) (r : List Byte),
    (isOperation 0x09 .unpackByte ∧ (s.pay = b0 :: r → exec .unpackByte s = .next { s with vals := { s.vals with byte := b0 } })) ∧
    (isOperation 0x0A .unpackI16 ∧ (s.pay = b0 :: b1 :: r → exec .unpackI16 s = .next { s with vals := { s.vals with int16 := b1 ++ b0 } })) ∧
    (isOperation 0x0B .unpackU16 ∧ (s.pay = b0 :: b1 :: r → exec .unpackU16 s = .next { s with vals := { s.vals with uint16 := b1 ++ b0 } })) ∧
    (isOperation 0x0C .unpackI32 ∧ (s.pay = b0 :: b1 :: b2 :: b3 :: r →
      exec .unpackI32 s = .next { s with vals := { s.vals with int32 := b3 ++ b2 ++ b1 ++ b0 } })) ∧
    (isOperation 0x0D .unpackU32 ∧ (s.pay = b0 :: b1 :: b2 :: b3 :: r →
      exec .unpackU32 s = .next { s with vals := { s.vals with uint32 := b3 ++ b2 ++ b1 ++ b0 } }))

/-- The field operations that rest on the spec's own decisions D8 (a Bool byte other than `00` is true) and D21 (a Float32 is moved bit for bit):
`PACK.F32`, `UNPACK.F32`, `UNPACK.BOOL`. -/
def Obligations.BoolAndFloatFieldsFollowDecisions : Prop :=
  ∀ (s : State) (b0 b1 b2 b3 : Byte) (r : List Byte),
    (isOperation 0x06 .packF32 ∧
      exec .packF32 s = .next { s with pay := [s.vals.float32.extractLsb' 0 8, s.vals.float32.extractLsb' 8 8,
        s.vals.float32.extractLsb' 16 8, s.vals.float32.extractLsb' 24 8] }) ∧
    (isOperation 0x0E .unpackF32 ∧ (s.pay = b0 :: b1 :: b2 :: b3 :: r →
      exec .unpackF32 s = .next { s with vals := { s.vals with float32 := b3 ++ b2 ++ b1 ++ b0 } })) ∧
    (isOperation 0x08 .unpackBool ∧ (s.pay = b0 :: r →
      exec .unpackBool s = .next { s with vals := { s.vals with bool := if b0 = 0 then 0 else 1 } }))

/-- 41_packet_schema.md R71, R72 with the widths of 40_field_types.md R54: `SCH.NUMBYTES` returns the sum of the widths, `SCH.OFFSET` the sum of the
widths before field `i`; an index above `sch.n` is refused. -/
def Obligations.SchemaQueriesSumWidths : Prop :=
  ([FieldType.bool, .byte, .int16, .uint16, .int32, .uint32, .float32].map FieldType.width = [1, 1, 2, 2, 4, 4, 4]) ∧
  ([FieldType.bool, .byte, .int16, .uint16, .int32, .uint32, .float32].map FieldType.vbits = [1, 8, 16, 16, 32, 32, 32]) ∧
  ∀ s : State,
    (isOperation 0x10 .schNumbytes ∧
      exec .schNumbytes s = .next { s with count := ((s.schemaOf s.kind).map FieldType.width).sum }) ∧
    (isOperation 0x11 .schOffset ∧
      (s.idx ≤ (s.schemaOf s.kind).length →
        exec .schOffset s = .next { s with count := (((s.schemaOf s.kind).take s.idx).map FieldType.width).sum }) ∧
      ((s.schemaOf s.kind).length < s.idx → exec .schOffset s = .refused .badIndex))

/-- `REC.NEW` gives the initial values of the table of 70_reset_and_hazards.md section 1, which are the spec's own decision D18: the Command Record's
discriminator and fillers for `COMMAND_SCHEMA`, and all zero for every other schema, `TELEMETRY_SCHEMA` among them. The new Record is the one thing
written but for the model's own marks of which Record is on loan (log 11). -/
def Obligations.RecNewGivesInitialValues : Prop :=
  ∀ s : State,
    isOperation 0x12 .recNew ∧
    (s.schemaOf s.kind = [.byte, .byte, .uint32, .uint32, .uint32, .uint32, .uint32, .uint32] →
      exec .recNew s = .next (s.freshRecord s.kind [.byte 0x01, .byte 0x00, .uint32 0, .uint32 0x12345678,
        .uint32 0x12345678, .uint32 0x12345678, .uint32 0x12345678, .uint32 0x12345678])) ∧
    (s.schemaOf s.kind ≠ [.byte, .byte, .uint32, .uint32, .uint32, .uint32, .uint32, .uint32] →
      exec .recNew s = .next (s.freshRecord s.kind ((s.schemaOf s.kind).map FieldType.zero))) ∧
    (s.configAdmissible = true → s.schemaOf .telemetry ≠ [.byte, .byte, .uint32, .uint32, .uint32, .uint32, .uint32, .uint32]) ∧
    (∀ k x, s.freshRecord k x = { s.setRecord k x with loanU0 := s.loanU0 && s.u0.kind != k, loanU6 := s.loanU6 && s.u6.kind != k }) ∧
    (∀ x, s.setRecord .command x = { s with cmdRec := x } ∧ s.setRecord .telemetry x = { s with tlmRec := x } ∧
      s.setRecord .generic x = { s with genRec := x })

/-- 41_packet_schema.md R75: `REC.GET` returns `x[i]` in the register of its type; an index outside the Record is refused. -/
def Obligations.RecGetReturnsRegister : Prop :=
  ∀ s : State,
    isOperation 0x14 .recGet ∧
    (∀ v, (s.recordOf s.kind)[s.idx]? = some v →
      (s.vals.put v).get v.type = v ∧ exec .recGet s = .next { s with vals := s.vals.put v }) ∧
    ((s.recordOf s.kind).length ≤ s.idx → exec .recGet s = .refused .badIndex)

/-- `REC.SET` writes the value of the field's type to `x[i]` and leaves every other register and everything else as it is (41_packet_schema.md section
2); an index outside the Record is refused, and so is a Record lent to an encode in progress (the spec's own decision D27, 70_reset_and_hazards.md
section 4). U0 and U6 borrow the Record at their `Start`; a Record that `REC.NEW` or a decode has made since, or the caller has handed over, is not
the one on loan (20_memory.md section 4; how the model tells the two apart is log 11). -/
def Obligations.RecSetWritesOneRegister : Prop :=
  ∀ s : State,
    isOperation 0x13 .recSet ∧
    (∀ v, (s.recordOf s.kind)[s.idx]? = some v → s.lent s.kind = false →
      ∃ t, exec .recSet s = .next t ∧ t = s.setRecord s.kind (t.recordOf s.kind) ∧
        (t.recordOf s.kind).length = (s.recordOf s.kind).length ∧
        (t.recordOf s.kind)[s.idx]? = some (s.vals.get v.type) ∧
        ∀ j, j ≠ s.idx → (t.recordOf s.kind)[j]? = (s.recordOf s.kind)[j]?) ∧
    (∀ v, (s.recordOf s.kind)[s.idx]? = some v → s.lent s.kind = true → exec .recSet s = .refused .recordLent) ∧
    ((s.recordOf s.kind).length ≤ s.idx → exec .recSet s = .refused .badIndex) ∧
    (∃ t u, startRun .u0 s = .next t ∧ t.lent s.kind = true ∧ startRun .u6 s = .next u ∧ u.lent .telemetry = true) ∧
    (∀ k x, (s.freshRecord k x).lent k = false ∧ ∀ j, j ≠ k → (s.freshRecord k x).lent j = s.lent j)

/-- 41_packet_schema.md R76 and 20_memory.md R30: `SCH.ENCODE` returns the fields packed in order, `sch.N` bytes, field `i` at `sch.off[i]` and
nothing between the fields; no register is written. -/
def Obligations.SchEncodePacksFieldsDensely : Prop :=
  ∀ s : State,
    isOperation 0x18 .schEncode ∧
    ∃ pay, exec .schEncode s = .next { s with pay := pay } ∧
      pay = ((s.recordOf s.kind).map pack).flatten ∧
      pay.length = numBytes (schemaOfRecord (s.recordOf s.kind)) ∧
      offset (schemaOfRecord (s.recordOf s.kind)) 0 = 0 ∧
      ∀ i v, (s.recordOf s.kind)[i]? = some v →
        offset (schemaOfRecord (s.recordOf s.kind)) (i + 1) = offset (schemaOfRecord (s.recordOf s.kind)) i + v.type.width ∧
        slice pay (offset (schemaOfRecord (s.recordOf s.kind)) i) (offset (schemaOfRecord (s.recordOf s.kind)) (i + 1)) = pack v

/-- `SCH.DECODE` of `sch.N` bytes gives a fresh Record whose field `i` is unpacked from the bytes at `sch.off[i]`, whatever they are; another length
is refused (41_packet_schema.md section 4; no field is checked: the spec's own decision D12). Beside the Record the decode changes the marks of a loan
of that kind alone, which it clears, for the fresh Record is not one on loan (log 11). -/
def Obligations.SchDecodeUnpacksFieldsInOrder : Prop :=
  ∀ s : State,
    isOperation 0x19 .schDecode ∧
    (s.pay.length = numBytes (s.schemaOf s.kind) →
      ∃ x, exec .schDecode s = .next (s.freshRecord s.kind x) ∧ schemaOfRecord x = s.schemaOf s.kind ∧
        ∀ i T, (s.schemaOf s.kind)[i]? = some T →
          x[i]? = some (unpack T (slice s.pay (offset (s.schemaOf s.kind) i) (offset (s.schemaOf s.kind) i + T.width)))) ∧
    (s.pay.length ≠ numBytes (s.schemaOf s.kind) → exec .schDecode s = .refused .badLength)

/-- 43_checksum.md R85: the word sum is the sum of the even bytes and 256 times the odd bytes, modulo 65536. -/
def Obligations.WordSumIsIntegerSumModulo : Prop :=
  ∀ p : List Byte,
    (wordSum p).toNat = (p.zipIdx.map fun b => b.1.toNat * (if b.2 % 2 = 0 then 1 else 256)).sum % 65536

/-- 43_checksum.md R86, R87: `CSUM.GEN` returns the complement of the word sum, `CSUM.VFY` sets `match` to whether it equals the received checksum. -/
def Obligations.ChecksumOperationsComplementSum : Prop :=
  ∀ s : State,
    (isOperation 0x1A .csumGen ∧ exec .csumGen s = .next { s with ck := ~~~(wordSum s.pay) }) ∧
    (isOperation 0x1B .csumVfy ∧
      exec .csumVfy s = .next { s with matched := some (if ~~~(wordSum s.pay) = s.rxck then 1 else 0) })

/-- 42_escape.md R80: `KISS.ESC` replaces each `C0` by `DB DC` and each `DB` by `DB DD`, byte by byte as the `WIRE8` rows say, and the length grows by
the number of bytes replaced. -/
def Obligations.KissEscReplacesReservedBytes : Prop :=
  ∀ s : State,
    isOperation 0x1C .kissEsc ∧
    ∃ e, exec .kissEsc s = .next { s with escr := e } ∧
      e = s.raw.flatMap (fun b => if b = 0xC0 then [0xDB, 0xDC] else if b = 0xDB then [0xDB, 0xDD] else [b]) ∧
      e = s.raw.flatMap U4.emitted ∧
      e.length = s.raw.length + s.raw.countP (fun b => b = 0xC0 ∨ b = 0xDB)

/-- `KISS.UNESC` replaces a pair and consumes both bytes; any other byte, a lone `DB` and a literal `C0` among them (the spec's own decisions D9 and
D10), is emitted and consumes itself alone (42_escape.md section 2). -/
def Obligations.KissUnescResolvesPairs : Prop :=
  ∀ s : State,
    isOperation 0x1D .kissUnesc ∧
    exec .kissUnesc s = .next { s with raw := unescape s.escr } ∧
    unescape [] = [] ∧
    (∀ e, unescape (0xDB :: 0xDC :: e) = 0xC0 :: unescape e) ∧
    (∀ e, unescape (0xDB :: 0xDD :: e) = 0xDB :: unescape e) ∧
    (∀ b e, (b = 0xDB → e.head? ≠ some 0xDC ∧ e.head? ≠ some 0xDD) → unescape (b :: e) = b :: unescape e)

/-- The wire rows: what a `WIRE8` or `WIRE16` row emits is appended to the caller's escaped or unescaped region, a frame-position row writes its byte
on send and stores the received one on receive, where a delimiter row with another byte than `C0` makes every decode of the frame answer `BadFraming`.
Where the bytes go is the model's choice (log 15); what they are is 30_encoding.md sections 1 to 3 and 42_escape.md sections 1 and 2. -/
def Obligations.WireRowsEmitTheirBytes : Prop :=
  ∀ (s : State) (b : Byte),
    exec .keeDelim s = .next { s with escr := s.escr ++ [0xDB, 0xDC] } ∧
    exec .keeEsc s = .next { s with escr := s.escr ++ [0xDB, 0xDD] } ∧
    exec (.keeLit b) s = .next { s with escr := s.escr ++ [b] } ∧
    exec .kedPairDelim s = .next { s with raw := s.raw ++ [0xC0] } ∧
    exec .kedPairEsc s = .next { s with raw := s.raw ++ [0xDB] } ∧
    exec .kedLone s = .next { s with raw := s.raw ++ [0xDB] } ∧
    exec (.kedLit b) s = .next { s with raw := s.raw ++ [b] } ∧
    exec (.frmLead .send) s = .next { s with frame := [0xC0] } ∧
    exec (.frmLink .send) s = .next { s with frame := s.frame ++ [0x00] } ∧
    exec (.frmTrail .send) s = .next { s with frame := s.frame ++ [0xC0] } ∧
    exec (.frmLead (.receive b)) s = .next { s with frame := [b] } ∧
    exec (.frmLink (.receive b)) s = .next { s with frame := s.frame ++ [b] } ∧
    exec (.frmTrail (.receive b)) s = .next { s with frame := s.frame ++ [b] } ∧
    (∀ i k, decoderKind i s = some k → b ≠ 0xC0 →
      (∀ f, s.frame = f ++ [b] ∨ s.frame = b :: f → exec i s = .next { s with status := some .badFraming }))

/-- The wire rows realise the escape codec: fetching the bytes of a region row by row gives what `KISS.ESC` and `KISS.UNESC` give of the whole region
(42_escape.md sections 1 and 2, 30_encoding.md section 5). The model's choices in it: the line of interactions (log 1), where the bytes go (log 15),
and that the bytes of one fetch are a whole region, so that an `ESC` that ends them is a lone one (log 27). -/
def Obligations.WireRowsRealiseEscapeCodec : Prop :=
  ∀ (s : State) (bs : List Byte),
    (∃ k, k ≤ bs.length + 1 ∧ runsTo { s with escr := [] } k [.fetch .wire8 bs] { s with escr := escape bs, pending := [] }) ∧
    (∃ k, k ≤ bs.length + 1 ∧ runsTo { s with raw := [] } k [.fetch .wire16 bs] { s with raw := unescape bs, pending := [] })

/-- An encode is the composition of `SCH.ENCODE`, `CSUM.GEN` over the payload and `KISS.ESC` over payload and checksum, between `C0 00` and `C0`
(44_framing.md section 1, 45_concrete_schemas.md sections 2 and 4); that the caller's frame is all that changes is the model's reading of who owns a
call's inner buffers (log 7). -/
def Obligations.EncodesComposeTheStages : Prop :=
  ∀ (s : State) (k : PacketKind), ∃ s1 s2 s3,
    exec .schEncode { s with kind := k } = .next s1 ∧ exec .csumGen s1 = .next s2 ∧
    exec .kissEsc { s2 with raw := s2.pay ++ [s2.ck.extractLsb' 0 8, s2.ck.extractLsb' 8 8] } = .next s3 ∧
    isOperation 0x20 .frmEnc ∧ isOperation 0x22 .cmdFmt ∧ isOperation 0x1E .tlmFmt ∧
    (k = s.kind → exec .frmEnc s = .next { s with frame := [0xC0, 0x00] ++ s3.escr ++ [0xC0] }) ∧
    (k = .command → exec .cmdFmt s = .next { s with frame := [0xC0, 0x00] ++ s3.escr ++ [0xC0] }) ∧
    (k = .telemetry → exec .tlmFmt s = .next { s with frame := [0xC0, 0x00] ++ s3.escr ++ [0xC0] })

/-- The six steps of a decode, in their order (44_framing.md section 2, 45_concrete_schemas.md sections 2 and 4, 60_exceptions.md section 1; link type
and interior `C0` unchecked are the spec's own decisions D10 and D11, no Record on an error its D23): `BadFraming`, then `LengthMismatch`, then
`ChecksumMismatch`, else the Record unpacked from the leading `sch.N` bytes. That nothing else of the caller's changes, the unescaped region among it,
is the model's reading of who owns a call's inner buffers (log 7); the fresh Record is not one on loan (log 11). -/
def Obligations.DecodesFollowTheSixSteps : Prop :=
  ∀ (i : Instr) (s : State) (k : PacketKind), decoderKind i s = some k →
    isOperation 0x21 .frmDec ∧ isOperation 0x1F .cmdParse ∧ isOperation 0x23 .tlmParse ∧
    (framingFails s.frame → exec i s = .next { s with status := some .badFraming }) ∧
    (¬ framingFails s.frame → (regionOf s.frame).length ≠ numBytes (s.schemaOf k) + 2 →
      exec i s = .next { s with status := some .lengthMismatch }) ∧
    (∀ pay lo hi, ¬ framingFails s.frame → regionOf s.frame = pay ++ [lo, hi] → pay.length = numBytes (s.schemaOf k) →
      ~~~(wordSum pay) ≠ hi ++ lo → exec i s = .next { s with status := some .checksumMismatch }) ∧
    (∀ pay lo hi, ¬ framingFails s.frame → regionOf s.frame = pay ++ [lo, hi] → pay.length = numBytes (s.schemaOf k) →
      ~~~(wordSum pay) = hi ++ lo →
      exec i s = .next { s.freshRecord k (unpackRecord (s.schemaOf k) pay) with status := some .ok })

/-- 60_exceptions.md R112: a decode answers `BadFraming` exactly when the frame is shorter than three bytes or its first or last byte is not `C0`. -/
def Obligations.BadFramingExactlyWhenFramingFails : Prop :=
  ∀ (i : Instr) (s : State) (k : PacketKind), decoderKind i s = some k →
    ∃ t, exec i s = .next t ∧ (t.status = some .badFraming ↔ framingFails s.frame)

/-- 60_exceptions.md R113: a decode answers `LengthMismatch` exactly when the framing test passes and the unescaped region is not `sch.N + 2` bytes.
-/
def Obligations.LengthMismatchExactlyWhenLengthDiffers : Prop :=
  ∀ (i : Instr) (s : State) (k : PacketKind), decoderKind i s = some k →
    ∃ t, exec i s = .next t ∧
      (t.status = some .lengthMismatch ↔ ¬ framingFails s.frame ∧ (regionOf s.frame).length ≠ numBytes (s.schemaOf k) + 2)

/-- 60_exceptions.md R114: a decode answers `ChecksumMismatch` exactly when the framing and length tests pass and the complement of the word sum of
the leading `sch.N` bytes differs from `{raw[N+1], raw[N]}`. -/
def Obligations.ChecksumMismatchExactlyWhenSumDiffers : Prop :=
  ∀ (i : Instr) (s : State) (k : PacketKind), decoderKind i s = some k →
    ∃ t, exec i s = .next t ∧
      (t.status = some .checksumMismatch ↔
        ¬ framingFails s.frame ∧ (regionOf s.frame).length = numBytes (s.schemaOf k) + 2 ∧
        ∀ lo hi, (regionOf s.frame)[numBytes (s.schemaOf k)]? = some lo → (regionOf s.frame)[numBytes (s.schemaOf k) + 1]? = some hi →
          ~~~(wordSum ((regionOf s.frame).take (numBytes (s.schemaOf k)))) ≠ hi ++ lo)

/-- A decode that fails delivers nothing but its error: every Record, the candidate frame and everything else is as before, and decoding again gives
the same error (60_exceptions.md section 1; "no Record on an error" is the spec's own decision D23). -/
def Obligations.FailedDecodeChangesOnlyStatus : Prop :=
  ∀ (i : Instr) (s : State) (k : PacketKind), decoderKind i s = some k →
    ∃ t, exec i s = .next t ∧
      (t.status ≠ some .ok → t = { s with status := t.status } ∧ exec i t = .next t)

/-- `TLM.PARSE` is `FRM.DEC` at `TELEMETRY_SCHEMA` and `CMD.PARSE` is `FRM.DEC` at `COMMAND_SCHEMA` (45_concrete_schemas.md, rules of both parsers;
the spec's own decisions D12 to D14). That the six 32-bit fields of `COMMAND_SCHEMA` are UInt32 is the spec's own decision D15. -/
def Obligations.ParsersAreFrmDecAtTheirSchema : Prop :=
  ∀ s : State,
    (∃ t, exec .frmDec { s with kind := .telemetry } = .next t ∧ exec .tlmParse s = .next { t with kind := s.kind }) ∧
    (∃ t, exec .frmDec { s with kind := .command } = .next t ∧ exec .cmdParse s = .next { t with kind := s.kind }) ∧
    State.schemaOf s .telemetry = s.tlmLayout.map Prod.snd ∧
    State.schemaOf s .command = [.byte, .byte, .uint32, .uint32, .uint32, .uint32, .uint32, .uint32]

/-- Each accessor returns the integer of its field of the Telemetry Record times the printed factor, or over the printed divisor, an exact rational,
with beside it the number the implementation's arithmetic gives, of which nothing is known, and changes nothing else (45_concrete_schemas.md section
5; Byte unsigned and exact rationals are the spec's own decisions D4 and D20; log 13). -/
def Obligations.AccessorsConvertRawIntegers : Prop :=
  ∀ s : State,
    (isOperation 0x28 .accPressure ∧ isOperation 0x29 .accAltitude ∧ isOperation 0x2A .accSpeed ∧ isOperation 0x2B .accLat ∧
      isOperation 0x2C .accLon ∧ isOperation 0x2D .accResettime ∧ isOperation 0x2E .accDataage) ∧
    (∀ (b : Byte) (h : Half) (w : Word), (FieldValue.byte b).int? = some (b.toNat : Int) ∧ (FieldValue.int16 h).int? = some h.toInt ∧
      (FieldValue.uint16 h).int? = some (h.toNat : Int) ∧ (FieldValue.int32 w).int? = some w.toInt ∧
      (FieldValue.uint32 w).int? = some (w.toNat : Int)) ∧
    (∀ v z, s.telemetryField .pressureRaw = some v → v.int? = some z →
      exec .accPressure s = .next
        { s with reading := (z : Rat) * 145038 / 1000000000, evaluated := Config.accessorNumerics (.times Config.pressureFactor) z }) ∧
    (∀ v, s.telemetryField (.gpsAltitudeRaw s.fix) = some (.int32 v) →
      exec .accAltitude s = .next
        { s with reading := (v.toInt : Rat) * 328084 / 10000000, evaluated := Config.accessorNumerics (.times Config.altitudeFactor) v.toInt }) ∧
    (∀ v z, s.telemetryField (.gpsSpeedRaw s.fix) = some v → v.int? = some z →
      exec .accSpeed s = .next
        { s with reading := (z : Rat) * 621371 / 1000000000, evaluated := Config.accessorNumerics (.times Config.speedFactor) z }) ∧
    (∀ v, s.telemetryField (.gpsLatitudeRaw s.fix) = some (.int32 v) →
      exec .accLat s = .next
        { s with reading := (v.toInt : Rat) / 10000000, evaluated := Config.accessorNumerics (.over Config.degreeDivisor) v.toInt }) ∧
    (∀ v, s.telemetryField (.gpsLongitudeRaw s.fix) = some (.int32 v) →
      exec .accLon s = .next
        { s with reading := (v.toInt : Rat) / 10000000, evaluated := Config.accessorNumerics (.over Config.degreeDivisor) v.toInt }) ∧
    (∀ v z, s.telemetryField .resetTimeRaw = some v → v.int? = some z →
      exec .accResettime s = .next
        { s with reading := (z : Rat) / 1000, evaluated := Config.accessorNumerics (.over Config.secondDivisor) z }) ∧
    (∀ v z, s.telemetryField .dataAgeRaw = some v → v.int? = some z →
      exec .accDataage s = .next
        { s with reading := (z : Rat) / 1000, evaluated := Config.accessorNumerics (.over Config.secondDivisor) z })

/-- In every state that meets the invariant the eight accessors complete, `ACC.RELAY` for relays 0 to 3: an admissible Telemetry layout has the fields
they read (the constraints on an open parameter, 45_concrete_schemas.md section 3, the spec's own decision D17). Nothing but the three results of
accessors changes, which are the two numbers and the Bool port; which accessor writes which of them is said by O23 and O26. -/
def Obligations.AccessorsCompleteOnTelemetryRecords : Prop :=
  ∀ (s : State) (i : Instr), s.inv = true →
    i ∈ [Instr.accPressure, .accAltitude, .accSpeed, .accLat, .accLon, .accResettime, .accDataage] ∨ (i = .accRelay ∧ s.relay ≤ 3) →
    ∃ t, exec i s = .next t ∧ t = { s with reading := t.reading, evaluated := t.evaluated, vals := { s.vals with bool := t.vals.bool } }

/-- The numeric codes of the `status` output and the tags of the FieldTypes, and that no two of them are the same (30_encoding.md section 5,
10_state.md section 4, 60_exceptions.md section 1; the numbers are the spec's own decisions D5 and D7). -/
def Obligations.NumericCodesAreAsListed : Prop :=
  [Status.ok, .badFraming, .lengthMismatch, .checksumMismatch].map Status.code = [0b00, 0b01, 0b10, 0b11] ∧
  [DecodeError.badFraming, .lengthMismatch, .checksumMismatch].map (fun e => e.status.code) = [1, 2, 3] ∧
  [FieldType.bool, .byte, .int16, .uint16, .int32, .uint32, .float32].map FieldType.tag = [0b000, 0b001, 0b010, 0b011, 0b100, 0b101, 0b110] ∧
  (∀ c : BitVec 2, ∃ st : Status, st.code = c ∧ ∀ st' : Status, st'.code = c → st' = st) ∧
  (∀ (T : FieldType) (g : BitVec 3), fieldTypeOfTag g = some T ↔ T.tag = g) ∧ fieldTypeOfTag 0b111 = none

/-- `ACC.RELAY` returns bit `k` of the relay-state byte for `k` from 0 to 3 and is refused above (45_concrete_schemas.md section 5; which bit is which
relay is the spec's own decision D19). -/
def Obligations.RelayIsBitOfMask : Prop :=
  ∀ s : State,
    isOperation 0x2F .accRelay ∧
    (∀ v : Byte, s.telemetryField .relayStates = some (.byte v) → s.relay ≤ 3 →
      exec .accRelay s = .next { s with vals := { s.vals with bool := BitVec.ofBool (v.getLsbD s.relay) } }) ∧
    (∀ v, s.telemetryField .relayStates = some v → v.type ≠ .bool → s.relay ≤ 3 →
      exec .accRelay s = .next { s with vals := { s.vals with bool := BitVec.ofBool ((fieldBits v).getLsbD s.relay) } }) ∧
    (3 < s.relay → exec .accRelay s = .refused .badRelay)

/-- `CMD.LOOKUP` returns the entry of the name for every command table, and is refused for a name the table lacks (45_concrete_schemas.md section 1;
the table is the open parameter of the spec's own decision D16). -/
def Obligations.CmdLookupReadsTheTable : Prop :=
  ∀ s : State,
    isOperation 0x30 .cmdLookup ∧
    (∀ i, commandTableInjective s.commandTable = true → (s.name, i) ∈ s.commandTable →
      exec .cmdLookup s = .next { s with vals := { s.vals with byte := i } }) ∧
    ((∀ i, (s.name, i) ∉ s.commandTable) → exec .cmdLookup s = .refused .unknownCommand)

/-- Words written out from the encoding tables of 30_encoding.md (sections 1 and 5) decode to the instructions they stand for: an operation number of
each group, the escape pairs, and numbers that are not assigned. That a bare word is read as an operation, a `WIRE8` byte or a `WIRE16` window by its
size and value is the model's choice, since the spec's formats overlap (log 3). -/
def Obligations.TableWordsDecode : Prop :=
  decodeTableWord 8 0b00000010 = some .packI16 ∧ decodeTableWord 8 0b00001101 = some .unpackU32 ∧
  decodeTableWord 8 0b00010001 = some .schOffset ∧ decodeTableWord 8 0b00011011 = some .csumVfy ∧
  decodeTableWord 8 0b00011111 = some .cmdParse ∧ decodeTableWord 8 0b00100001 = some .frmDec ∧
  decodeTableWord 8 0b00101011 = some .accLat ∧ decodeTableWord 8 0b00110000 = some .cmdLookup ∧
  decodeTableWord 8 0b11000000 = some .keeDelim ∧ decodeTableWord 8 0b11011011 = some .keeEsc ∧
  decodeTableWord 16 0b1101101111011100 = some .kedPairDelim ∧ decodeTableWord 16 0b1101101111011101 = some .kedPairEsc ∧
  decodeTableWord 16 0b1101101100000000 = some .kedLone ∧ decodeTableWord 8 0b00000111 = none ∧ decodeTableWord 8 0b00111111 = none

/-- An operation number that decodes is the one its instruction is listed with; every other byte is not assigned and a step that fetches it is refused
(30_encoding.md sections 3 and 5; the numbers are the spec's own decision D6; that the six bits stand in a byte and the bytes from `0x40` on are not
assigned is the model's choice, log 3, and so is the line of interactions, log 1). -/
def Obligations.UnassignedOperationsRefused : Prop :=
  ∀ (s : State) (op : Byte) (ops : List Byte) (rest : List Interaction), s.pending = .fetch .op6 (op :: ops) :: rest →
    (∃ i, decode .op6 (op :: ops) = .instr i ops ∧ encode i = [op] ∧ formatOf i = .op6) ∨
    ((∀ i, formatOf i = .op6 → encode i ≠ [op]) ∧ step s = .refused .unassigned)

/-- A step runs the decoded instruction: the interaction is consumed, the bytes after the instruction stay in front, and the step is what the
instruction does (30_encoding.md section 5; the list of interactions is the model's own, log 1). -/
def Obligations.StepRunsDecodedInstruction : Prop :=
  ∀ (s : State) (f : Format) (bytes left : List Byte) (rest : List Interaction) (i : Instr),
    s.pending = .fetch f bytes :: rest → decode f bytes = .instr i left → i.wellFormed = true →
    step s = exec i { s with pending := if left = [] then rest else .fetch f left :: rest }

/-- Decoding an encoded well-formed instruction gives it back with the bytes that follow, for every instruction and every operand, provided a lone
`ESC` is not followed by a token (30_encoding.md sections 1 and 5). -/
def Obligations.DecodeOfEncodeIsInstruction : Prop :=
  ∀ (i : Instr) (rest : List Byte), i.wellFormed = true →
    (i = .kedLone → rest.head? ≠ some 0xDC ∧ rest.head? ≠ some 0xDD) →
    decode (formatOf i) (encode i ++ rest) = .instr i rest

/-- In each format a word has one meaning: bytes that decode to an instruction in a format are its encoding and what follows, the instruction is
well-formed and of that format (30_encoding.md sections 1, 3 and 5). It rests on two choices of the model: bytes from `0x40` on are no operation (log
3), and a frame position on send has no instruction for another byte than the one written there (log 26). -/
def Obligations.EncodeOfDecodeIsWord : Prop :=
  ∀ (f : Format) (bytes rest : List Byte) (i : Instr), decode f bytes = .instr i rest →
    bytes = encode i ++ rest ∧ formatOf i = f ∧ i.wellFormed = true

/-- The invariant holds after reset. It names the model's choices of open parameters (log 5, 6) only through the spec's constraints on them. -/
def Obligations.ResetMeetsInvariant : Prop := State.inv State.reset = true

/-- Every step keeps the invariant: the concrete Records keep the types of their schemas, every unit's registers are consistent in a call and at their
`Start` values outside one, and the configuration stays admissible (10_state.md, 70_reset_and_hazards.md sections 1 and 4; the `active` marks are the
model's own, log 8). -/
def Obligations.StepKeepsInvariant : Prop := ∀ s t : State, s.inv = true → step s = .next t → t.inv = true

/-- 70_reset_and_hazards.md R126: the schema of each concrete kind and the command table are the same after every step, and no operation changes the
schema it works against. -/
def Obligations.ConfigurationNeverChanges : Prop :=
  (∀ s t : State, step s = .next t → t.tlmLayout = s.tlmLayout ∧ t.commandTable = s.commandTable ∧
    (∀ k, k ≠ .generic → t.schemaOf k = s.schemaOf k)) ∧
  ∀ (i : Instr) (s t : State), exec i s = .next t → ∀ k, t.schemaOf k = s.schemaOf k

/-- No operation writes an operand that is not also a result (schema, kind, index, fix, relay, name, byte lanes, received checksum), the
configuration, the caller's line of interactions or a register of a level S unit: nothing persists in a unit between calls (10_state.md sections 7 and
9; that level T calls leave level S units alone is the model's reading, log 9). -/
def Obligations.OperationsLeaveOperandsAndUnits : Prop :=
  ∀ (i : Instr) (s t : State), exec i s = .next t → sameOperands s t ∧ sameUnits s t

/-- The Records are written by `REC.NEW`, `REC.SET`, `SCH.DECODE`, `FRM.DEC`, `CMD.PARSE` and `TLM.PARSE` alone, and `FRM.DEC` and the parsers write
one only when they answer `OK`; encodes and all other operations write none (10_state.md sections 2 and 9). -/
def Obligations.RecordsWrittenOnlyByNamedOperations : Prop :=
  ∀ (i : Instr) (s t : State), exec i s = .next t → ¬ sameRecords s t →
    i ∈ [Instr.recNew, .recSet, .schDecode] ∨ (i ∈ [Instr.frmDec, .cmdParse, .tlmParse] ∧ t.status = some .ok)

/-- `status` is written by `FRM.DEC`, `CMD.PARSE` and `TLM.PARSE` alone, `match` by `CSUM.VFY` alone: no operation sets a flag as a side effect
(10_state.md section 4). -/
def Obligations.FlagsWrittenOnlyByNamedOperations : Prop :=
  ∀ (i : Instr) (s t : State), exec i s = .next t →
    (t.status ≠ s.status → i ∈ [Instr.frmDec, .cmdParse, .tlmParse]) ∧ (t.matched ≠ s.matched → i = .csumVfy)

/-- A buffer is written only by the operations that return it: the payload by `PACK.T` and `SCH.ENCODE`, the unescaped region by `KISS.UNESC` and its
rows, the escaped region by `KISS.ESC` and its rows, the frame by the encodes and the frame rows (10_state.md sections 6 and 9; buffers inside a call
are not the caller's, log 7). -/
def Obligations.BuffersWrittenOnlyByNamedOperations : Prop :=
  ∀ (i : Instr) (s t : State), exec i s = .next t →
    (t.pay ≠ s.pay → i ∈ [Instr.packBool, .packByte, .packI16, .packU16, .packI32, .packU32, .packF32, .schEncode]) ∧
    (t.raw ≠ s.raw → i ∈ [Instr.kissUnesc, .kedPairDelim, .kedPairEsc, .kedLone] ∨ ∃ b, i = .kedLit b) ∧
    (t.escr ≠ s.escr → i ∈ [Instr.kissEsc, .keeDelim, .keeEsc] ∨ ∃ b, i = .keeLit b) ∧
    (t.frame ≠ s.frame → i ∈ [Instr.frmEnc, .cmdFmt, .tlmFmt] ∨ ∃ a, i = .frmLead a ∨ i = .frmLink a ∨ i = .frmTrail a)

/-- A decode is a function of the candidate frame and the schema alone: two states that agree on them and on the packet kind get the same status and,
on `OK`, the same Record, whatever else differs (10_state.md section 7). -/
def Obligations.DecodeDependsOnOperandsAlone : Prop :=
  ∀ (i : Instr) (s s' : State) (k : PacketKind), decoderKind i s = some k → decoderKind i s' = some k → s.frame = s'.frame →
    s.schemaOf k = s'.schemaOf k →
    ∃ t t', exec i s = .next t ∧ exec i s' = .next t' ∧ t.status = t'.status ∧
      (t.status = some .ok → t.recordOf k = t'.recordOf k)

/-- The round trips of the Field Type Table (40_field_types.md section 4, which derives them): unpacking a packed register gives it back; packing
unpacked bytes gives them back but for Bool, where it holds exactly for `00` and `01`; `PACK.T` gives `width(T)` bytes. -/
def Obligations.FieldRoundTrips : Prop :=
  (∀ v : FieldValue, unpack v.type (pack v) = v ∧ (pack v).length = v.type.width) ∧
  (∀ (T : FieldType) (bs : List Byte), bs.length = T.width →
    (unpack T bs).type = T ∧ (T ≠ .bool → pack (unpack T bs) = bs) ∧ (T = .bool → (pack (unpack T bs) = bs ↔ bs = [0] ∨ bs = [1])))

/-- The payload round trips of the schema codec (41_packet_schema.md section 6 (b) and (c), which derives them): decoding an encoded Record gives it
back, as a fresh Record, which is all that the decode changes: the marks of a loan of that kind are cleared (log 11); encoding a decoded payload gives
it back but for Bool bytes above `01`, which come back as `01`. -/
def Obligations.PayloadRoundTrips : Prop :=
  (∀ s : State, schemaOfRecord (s.recordOf s.kind) = s.schemaOf s.kind →
    ∃ t, exec .schEncode s = .next t ∧ exec .schDecode t = .next (t.freshRecord t.kind (t.recordOf t.kind))) ∧
  (∀ s : State, s.pay.length = numBytes (s.schemaOf s.kind) →
    ∃ t, exec .schDecode s = .next t ∧ exec .schEncode t = .next { t with pay := normalPayload (s.schemaOf s.kind) s.pay })

/-- Escaping and unescaping are inverse, and escaping is injective (42_escape.md section 4 (a), (c), which derives them). -/
def Obligations.UnescapeInvertsEscape : Prop :=
  (∀ s : State, ∃ t, exec .kissEsc s = .next t ∧ exec .kissUnesc t = .next t) ∧
  ∀ (s s' t t' : State), exec .kissEsc s = .next t → exec .kissEsc s' = .next t' → t.escr = t'.escr → s.raw = s'.raw

/-- An escaped region has no `C0` and every `DB` in it begins a pair; escaping an unescaped region gives it back exactly when it is such a region
(42_escape.md section 4 (b), (d), which derives them). -/
def Obligations.EscapedRegionsAreExactlyTheImage : Prop :=
  (∀ s t : State, exec .kissEsc s = .next t → 0xC0 ∉ t.escr ∧ properlyEscaped t.escr = true) ∧
  ∀ s : State, ∃ t u, exec .kissUnesc s = .next t ∧ exec .kissEsc t = .next u ∧ (u.escr = s.escr ↔ properlyEscaped s.escr = true)

/-- A checksum matches the payload it was made of, and detects every change of one byte (43_checksum.md section 5 (a), (b), which derives them). -/
def Obligations.ChecksumDetectsEveryByteChange : Prop :=
  ∀ (s : State), ∃ t, exec .csumGen s = .next t ∧
    exec .csumVfy { t with rxck := t.ck } = .next { t with rxck := t.ck, matched := some 1 } ∧
    ∀ j b b', s.pay[j]? = some b → b' ≠ b →
      exec .csumVfy { t with pay := s.pay.set j b', rxck := t.ck } =
        .next { t with pay := s.pay.set j b', rxck := t.ck, matched := some 0 }

/-- The checksum misses the compensating changes the spec says it misses, and must go on missing them (43_checksum.md section 5 (c), which derives
them): two words exchanged, bit 15 of two words flipped, and an amount moved from one low byte to another. -/
def Obligations.ChecksumMissesCompensatingChanges : Prop :=
  ∀ (p q r : List Byte) (a b c d : Byte), p.length % 2 = 0 → q.length % 2 = 0 →
    checksum (p ++ [a, b] ++ q ++ [c, d] ++ r) = checksum (p ++ [c, d] ++ q ++ [a, b] ++ r) ∧
    checksum (p ++ [a, b] ++ q ++ [c, d] ++ r) = checksum (p ++ [a, b ^^^ 0x80] ++ q ++ [c, d ^^^ 0x80] ++ r) ∧
    ∀ n : Byte, a.toNat + n.toNat < 256 → n.toNat ≤ c.toNat →
      checksum (p ++ [a, b] ++ q ++ [c, d] ++ r) = checksum (p ++ [a + n, b] ++ q ++ [c - n, d] ++ r)

/-- Decoding a produced frame gives `OK` and the Record it was made of, as a fresh Record, for the generic operations and for the Command and
Telemetry pairs (44_framing.md section 5 (a), which derives it from the source's round-trip property). Beside the status the decode changes the marks
of a loan of that kind alone, which it clears (log 11). -/
def Obligations.FrameRoundTrip : Prop :=
  ∀ (s : State) (k : PacketKind) (enc dec : Instr),
    (enc, dec, k) ∈ [(Instr.frmEnc, Instr.frmDec, s.kind), (.cmdFmt, .cmdParse, .command), (.tlmFmt, .tlmParse, .telemetry)] →
    schemaOfRecord (s.recordOf k) = s.schemaOf k →
    ∃ t, exec enc s = .next t ∧ exec dec t = .next { t.freshRecord k (t.recordOf k) with status := some .ok }

/-- A produced frame holds exactly two bytes `C0`, its first and its last, is between `N + 5` and `2N + 7` bytes long, and tells its Record: two
Records of one schema with the same frame are the same (44_framing.md section 5 (b) to (d), 20_memory.md section 3, which derive it). -/
def Obligations.FramesAreDelimitedBoundedInjective : Prop :=
  ∀ s : State, ∃ f, exec .frmEnc s = .next { s with frame := f } ∧
    f.count 0xC0 = 2 ∧ f.head? = some 0xC0 ∧ f.getLast? = some 0xC0 ∧
    numBytes (schemaOfRecord (s.recordOf s.kind)) + 5 ≤ f.length ∧
    f.length ≤ 2 * numBytes (schemaOfRecord (s.recordOf s.kind)) + 7 ∧
    ∀ s' : State, schemaOfRecord (s'.recordOf s'.kind) = schemaOfRecord (s.recordOf s.kind) →
      exec .frmEnc s' = .next { s' with frame := f } → s'.recordOf s'.kind = s.recordOf s.kind

/-- One flipped bit of a produced frame (44_framing.md section 5 (g), which derives it): in the first or last byte it gives `BadFraming`; in the
link-type byte it does no harm; anywhere else it gives `LengthMismatch` or `ChecksumMismatch`, never `OK`. -/
def Obligations.SingleBitDamageIsDetected : Prop :=
  ∀ (s : State) (j b : Nat), schemaOfRecord (s.recordOf s.kind) = s.schemaOf s.kind →
    j < (frameEncode (s.recordOf s.kind)).length → b < 8 →
    ∃ t u, exec .frmEnc s = .next t ∧ exec .frmDec { t with frame := flipBit t.frame j b } = .next u ∧
      (j = 0 ∨ j + 1 = t.frame.length → u.status = some .badFraming) ∧
      (j = 1 → u = { t.freshRecord t.kind (t.recordOf t.kind) with frame := flipBit t.frame j b, status := some .ok }) ∧
      (1 < j → j + 1 < t.frame.length → u.status = some .lengthMismatch ∨ u.status = some .checksumMismatch)

/-- U0 at level S returns what `SCH.ENCODE` returns (the refinement obligation of 41_packet_schema.md section 5, the spec's own decision D2), one byte
a step, from any state of its registers; and a call of U0 in progress, with nothing lined up, ends by itself with the payload of its Record
(70_reset_and_hazards.md section 4). The model's choices in it: the line of interactions (log 1), the mark of a call (log 8), whose Record is on loan
(log 11), and the steps of U0 with its End as one of its own after the last byte (log 25). -/
def Obligations.SerialEncoderRefinesSchEncode : Prop :=
  (∀ s : State, ∃ t, exec .schEncode s = .next t ∧
    runsTo s (t.pay.length + 2) (.startRun .u0 :: List.replicate (t.pay.length + 1) (.tick .u0))
      { t with u0 := U0.idle, loanU0 := false, pending := [] }) ∧
  ∀ s : State, s.pending = [] → s.u0.active = true → s.u0.consistent = true →
    ∃ k t, k ≤ (packRecord s.u0.record).length + 1 ∧ stepTimes k s = .next t ∧ t.pay = packRecord s.u0.record ∧ t.u0 = U0.idle ∧ t.loanU0 = false

/-- U1 at level S returns what `SCH.DECODE` returns of the bytes it received, and is refused on the same lengths (the refinement obligation of
41_packet_schema.md section 5, the spec's own decision D2). -/
def Obligations.SerialDecoderRefinesSchDecode : Prop :=
  ∀ s : State,
    (∀ t, exec .schDecode s = .next t →
      runsTo s (s.pay.length + 2) (.start .u1 :: s.pay.map (.byte .u1) ++ [.finish .u1]) { t with u1 := U1.idle, pending := [] }) ∧
    (exec .schDecode s = .refused .badLength →
      stepTimes (s.pay.length + 2) { s with pending := .start .u1 :: s.pay.map (.byte .u1) ++ [.finish .u1] } =
        .refused .badLength)

/-- U2 and U3 at level S return what `CSUM.GEN` and `CSUM.VFY` return (the refinement obligation of 43_checksum.md section 4, the spec's own decision
D2). -/
def Obligations.SerialChecksumRefinesChecksum : Prop :=
  ∀ s : State,
    (∃ t, exec .csumGen s = .next t ∧
      runsTo s (s.pay.length + 2) (.start .u2 :: s.pay.map (.byte .u2) ++ [.finish .u2]) { t with u2 := U2.idle, pending := [] }) ∧
    (∃ t, exec .csumVfy s = .next t ∧
      runsTo s (s.pay.length + 2) (.start .u3 :: s.pay.map (.byte .u3) ++ [.finish .u3]) { t with u3 := U3.idle, pending := [] })

/-- U4 and U5 at level S return what `KISS.ESC` and `KISS.UNESC` return (the refinement obligation of 42_escape.md section 3, the spec's own decision
D2). -/
def Obligations.SerialEscapeRefinesEscape : Prop :=
  ∀ s : State,
    (∃ t, exec .kissEsc s = .next t ∧
      runsTo s (s.raw.length + 2) (.start .u4 :: s.raw.map (.byte .u4) ++ [.finish .u4]) { t with u4 := U4.idle, pending := [] }) ∧
    (∃ t, exec .kissUnesc s = .next t ∧
      runsTo s (s.escr.length + 2) (.start .u5 :: s.escr.map (.byte .u5) ++ [.finish .u5]) { t with u5 := U5.idle, pending := [] })

/-- U6 at level S returns what `TLM.FMT` returns, its Record on loan no longer, and its sequencer, from its start values with any Record, emits what
`FRM.ENC` returns and is then done (the refinement obligation of 44_framing.md section 4, the spec's own decision D2); and a call of U6 in progress,
with nothing lined up, ends by itself with the frame of its Record (70_reset_and_hazards.md section 4). The model's choices in it: the line of
interactions (log 1), the mark of a call (log 8), whose Record is on loan (log 11), leaving `BODY` as a step of its own (log 18), and the steps of U6
with its End as one of its own in stage `DONE` (log 25). -/
def Obligations.SerialFormatterRefinesFrmEnc : Prop :=
  (∀ s : State, ∃ t, exec .tlmFmt s = .next t ∧
    runsTo s ((packRecord s.tlmRec).length + 8) (.startRun .u6 :: List.replicate ((packRecord s.tlmRec).length + 7) (.tick .u6))
      { t with u6 := U6.idle, loanU6 := false, pending := [] }) ∧
  (∀ s : State, ∃ t, exec .frmEnc s = .next t ∧
    (U6.next^[(packRecord (s.recordOf s.kind)).length + 6] (U6.start s.kind (s.recordOf s.kind))).stage = .done ∧
    (U6.next^[(packRecord (s.recordOf s.kind)).length + 6] (U6.start s.kind (s.recordOf s.kind))).frame = t.frame) ∧
  ∀ s : State, s.pending = [] → s.u6.active = true → s.u6.consistent = true →
    ∃ k t, k ≤ (packRecord s.u6.u0.record).length + 7 ∧ stepTimes k s = .next t ∧ t.frame = frameEncode s.u6.u0.record ∧ t.u6 = U6.idle ∧
      t.loanU6 = false

/-- U7 at level S reports what `CMD.PARSE` reports of the candidate frame it received, and its sequencer, started at any schema, reports what
`FRM.DEC` delivers (the refinement obligation of 44_framing.md section 4, the spec's own decision D2). -/
def Obligations.SerialParserRefinesFrmDec : Prop :=
  (∀ s : State, ∃ t, exec .cmdParse s = .next t ∧
    runsTo s (s.frame.length + 2) (.start .u7 :: s.frame.map (.byte .u7) ++ [.finish .u7]) { t with u7 := U7.idle, pending := [] }) ∧
  ∀ s : State, exec .frmDec s = .next (s.deliver s.kind (s.frame.foldl U7.byte (U7.start s.kind (s.schemaOf s.kind))).outcome)

/-- Calls in different units do not interact: bytes for two different units may arrive in either order (20_memory.md section 4 (d), 60_exceptions.md
section 5). -/
def Obligations.UnitsDoNotInteract : Prop :=
  ∀ (s t : State) (u v : ByteUnit) (b c : Byte), u ≠ v →
    runsTo s 2 [.byte u b, .byte v c] t → runsTo s 2 [.byte v c, .byte u b] t

/-- A number enters a register exactly if it is in the domain of the type (40_field_types.md section 1, 60_exceptions.md section 3; Byte unsigned is
the spec's own decision D4). The number a register stands for enters as that register, and every number that some register stands for, a rational
equal to a binary32 datum among them, enters as a register that stands for it; every number that no register of the type stands for, an integer
outside the range, a fraction, a truth value offered for another type, a real that is no binary32 datum, is refused, never wrapped; so the
discriminator UNKNOWN = -1 cannot be packed. The layout of binary32 is the spec's general knowledge (log 12); that a datum offered by its pattern
belongs to the Float32 domain alone is the model's choice (log 28). -/
def Obligations.NumbersEnterOnlyInDomain : Prop :=
  ∀ s : State,
    (∀ v : FieldValue, interact (.handNumber v.type (valNumber v)) s = .next { s with vals := s.vals.put v }) ∧
    (∀ (v : FieldValue) (z : Number), v.standsFor z →
      ∃ w : FieldValue, w.type = v.type ∧ w.standsFor z ∧ interact (.handNumber v.type z) s = .next { s with vals := s.vals.put w }) ∧
    (∀ (T : FieldType) (z : Number), (∀ v : FieldValue, v.type = T → ¬ v.standsFor z) → interact (.handNumber T z) s = .refused .outOfDomain) ∧
    (∀ (T : FieldType) (z : Number) (t : State), interact (.handNumber T z) s = .next t →
      ∃ v : FieldValue, v.type = T ∧ v.standsFor z ∧ t = { s with vals := s.vals.put v }) ∧
    (∀ z : Int, z < 0 ∨ 255 < z → interact (.handNumber .byte (.rational z)) s = .refused .outOfDomain) ∧
    (∀ z : Int, z < -32768 ∨ 32767 < z → interact (.handNumber .int16 (.rational z)) s = .refused .outOfDomain) ∧
    (∀ z : Int, z < 0 ∨ 65535 < z → interact (.handNumber .uint16 (.rational z)) s = .refused .outOfDomain) ∧
    (∀ z : Int, z < -2147483648 ∨ 2147483647 < z → interact (.handNumber .int32 (.rational z)) s = .refused .outOfDomain) ∧
    (∀ z : Int, z < 0 ∨ 4294967295 < z → interact (.handNumber .uint32 (.rational z)) s = .refused .outOfDomain) ∧
    interact (.handNumber .byte (.rational Config.discUnknown)) s = .refused .outOfDomain

/-- After reset: new Records of the concrete kinds, empty buffers, no status and no match yet, each unit's own registers at their `Start` values
(those of the units that U6 and U7 contain are not listed here), no Record on loan, nothing lined up (10_state.md section 8, 70_reset_and_hazards.md
section 1; the Command defaults are the spec's own decision D18, the empty line of interactions and the marks of a loan the model's, log 1, 11). -/
def Obligations.ResetStateIsAsSpecified : Prop :=
  State.reset.cmdRec = [.byte 0x01, .byte 0x00, .uint32 0, .uint32 0x12345678, .uint32 0x12345678, .uint32 0x12345678,
    .uint32 0x12345678, .uint32 0x12345678] ∧
  State.reset.tlmRec = (State.reset.tlmLayout.map Prod.snd).map FieldType.zero ∧
  State.reset.pay = [] ∧ State.reset.raw = [] ∧ State.reset.escr = [] ∧ State.reset.frame = [] ∧
  State.reset.status = none ∧ State.reset.matched = none ∧
  (State.reset.u0.fi, State.reset.u0.bi, State.reset.u0.pay) = (0, 0, []) ∧
  (State.reset.u1.fi, State.reset.u1.bi, State.reset.u1.sh, State.reset.u1.xs) = (0, 0, 0, []) ∧
  (State.reset.u2.acc, State.reset.u2.phase) = (0, false) ∧ (State.reset.u3.sum.acc, State.reset.u3.sum.phase) = (0, false) ∧
  State.reset.u4.escr = [] ∧ (State.reset.u5.escPend, State.reset.u5.raw) = (false, []) ∧
  (State.reset.u6.stage, State.reset.u6.frame) = (.lead, []) ∧
  (State.reset.u7.rxbuf, State.reset.u7.rxlen, State.reset.u7.cnt) = ([], 0, 0) ∧
  (∀ k, State.reset.lent k = false) ∧ State.reset.pending = []

/-- What the caller hands over is checked as the spec's refusals say (60_exceptions.md section 3, the spec's own decision D26): a Record enters only
with the types of its schema, a schema only from assigned tags. A Record handed over counts as another than one on loan, whatever it holds, so that
the marks of a loan of that kind are cleared: the model's choice (log 11). A field name stands for the first field of that name and is refused where
the layout has none, every name for the generic kind: these three are the model's choice (log 19), for the spec lists no refusal of a name. -/
def Obligations.HandOversAreChecked : Prop :=
  ∀ s : State,
    (∀ x, schemaOfRecord x = s.schemaOf s.kind → interact (.handRecord x) s = .next (s.freshRecord s.kind x)) ∧
    (∀ x, schemaOfRecord x ≠ s.schemaOf s.kind → interact (.handRecord x) s = .refused .badArity) ∧
    (∀ sch : Schema, interact (.handSchema (sch.map FieldType.tag)) s = .next { s with sch := sch }) ∧
    (∀ tags : List (BitVec 3), 7 ∈ tags → interact (.handSchema tags) s = .refused .unassigned) ∧
    (∀ n i, ((s.layoutOf s.kind).map Prod.fst).idxOf? n = some i → interact (.handField n) s = .next { s with idx := i }) ∧
    (∀ n, n ∉ (s.layoutOf s.kind).map Prod.fst → interact (.handField n) s = .refused .badIndex)

/-- Every `UNPACK` completes in every state: where the payload is shorter than the field, for which the spec gives `MemRead` no value (00_scope.md
section 6), the bytes it lacks are those on the caller's byte lanes, so that the result is what the payload continued by them gives; the register of
its type is all that changes (the lanes are the model's choice, log 24). -/
def Obligations.UnpackCompletesOnShortPayloads : Prop :=
  ∀ (s : State) (i : Instr) (T : FieldType),
    (i, T) ∈ [(Instr.unpackBool, FieldType.bool), (.unpackByte, .byte), (.unpackI16, .int16), (.unpackU16, .uint16), (.unpackI32, .int32),
      (.unpackU32, .uint32), (.unpackF32, .float32)] →
    ∃ v : FieldValue, v.type = T ∧ exec i s = .next { s with vals := s.vals.put v } ∧
      v = unpack T ((s.pay ++ [s.fbytes.b0, s.fbytes.b1, s.fbytes.b2, s.fbytes.b3].drop s.pay.length).take T.width)
end

