-- ==== Sys2Proof/Laws/State.lean ====
section
/-! SUPPORT. What each named update of State leaves and writes, field by field, so that no later proof unfolds a record update. -/

namespace Sys2Proof.Machine

/-! ### `State.setRecord` -/

@[simp] theorem State.setRecord_sch (s : State) (k : PacketKind) (x : Record) : (s.setRecord k x).sch = s.sch := by cases k <;> rfl
@[simp] theorem State.setRecord_tlmLayout (s : State) (k : PacketKind) (x : Record) : (s.setRecord k x).tlmLayout = s.tlmLayout := by cases k <;> rfl
@[simp] theorem State.setRecord_commandTable (s : State) (k : PacketKind) (x : Record) : (s.setRecord k x).commandTable = s.commandTable := by cases k <;> rfl
@[simp] theorem State.setRecord_kind (s : State) (k : PacketKind) (x : Record) : (s.setRecord k x).kind = s.kind := by cases k <;> rfl
@[simp] theorem State.setRecord_idx (s : State) (k : PacketKind) (x : Record) : (s.setRecord k x).idx = s.idx := by cases k <;> rfl
@[simp] theorem State.setRecord_fix (s : State) (k : PacketKind) (x : Record) : (s.setRecord k x).fix = s.fix := by cases k <;> rfl
@[simp] theorem State.setRecord_relay (s : State) (k : PacketKind) (x : Record) : (s.setRecord k x).relay = s.relay := by cases k <;> rfl
@[simp] theorem State.setRecord_name (s : State) (k : PacketKind) (x : Record) : (s.setRecord k x).name = s.name := by cases k <;> rfl
@[simp] theorem State.setRecord_vals (s : State) (k : PacketKind) (x : Record) : (s.setRecord k x).vals = s.vals := by cases k <;> rfl
@[simp] theorem State.setRecord_fbytes (s : State) (k : PacketKind) (x : Record) : (s.setRecord k x).fbytes = s.fbytes := by cases k <;> rfl
@[simp] theorem State.setRecord_pay (s : State) (k : PacketKind) (x : Record) : (s.setRecord k x).pay = s.pay := by cases k <;> rfl
@[simp] theorem State.setRecord_raw (s : State) (k : PacketKind) (x : Record) : (s.setRecord k x).raw = s.raw := by cases k <;> rfl
@[simp] theorem State.setRecord_escr (s : State) (k : PacketKind) (x : Record) : (s.setRecord k x).escr = s.escr := by cases k <;> rfl
@[simp] theorem State.setRecord_frame (s : State) (k : PacketKind) (x : Record) : (s.setRecord k x).frame = s.frame := by cases k <;> rfl
@[simp] theorem State.setRecord_rxck (s : State) (k : PacketKind) (x : Record) : (s.setRecord k x).rxck = s.rxck := by cases k <;> rfl
@[simp] theorem State.setRecord_count (s : State) (k : PacketKind) (x : Record) : (s.setRecord k x).count = s.count := by cases k <;> rfl
@[simp] theorem State.setRecord_ck (s : State) (k : PacketKind) (x : Record) : (s.setRecord k x).ck = s.ck := by cases k <;> rfl
@[simp] theorem State.setRecord_reading (s : State) (k : PacketKind) (x : Record) : (s.setRecord k x).reading = s.reading := by cases k <;> rfl
@[simp] theorem State.setRecord_evaluated (s : State) (k : PacketKind) (x : Record) : (s.setRecord k x).evaluated = s.evaluated := by cases k <;> rfl
@[simp] theorem State.setRecord_status (s : State) (k : PacketKind) (x : Record) : (s.setRecord k x).status = s.status := by cases k <;> rfl
@[simp] theorem State.setRecord_matched (s : State) (k : PacketKind) (x : Record) : (s.setRecord k x).matched = s.matched := by cases k <;> rfl
@[simp] theorem State.setRecord_u0 (s : State) (k : PacketKind) (x : Record) : (s.setRecord k x).u0 = s.u0 := by cases k <;> rfl
@[simp] theorem State.setRecord_u1 (s : State) (k : PacketKind) (x : Record) : (s.setRecord k x).u1 = s.u1 := by cases k <;> rfl
@[simp] theorem State.setRecord_u2 (s : State) (k : PacketKind) (x : Record) : (s.setRecord k x).u2 = s.u2 := by cases k <;> rfl
@[simp] theorem State.setRecord_u3 (s : State) (k : PacketKind) (x : Record) : (s.setRecord k x).u3 = s.u3 := by cases k <;> rfl
@[simp] theorem State.setRecord_u4 (s : State) (k : PacketKind) (x : Record) : (s.setRecord k x).u4 = s.u4 := by cases k <;> rfl
@[simp] theorem State.setRecord_u5 (s : State) (k : PacketKind) (x : Record) : (s.setRecord k x).u5 = s.u5 := by cases k <;> rfl
@[simp] theorem State.setRecord_u6 (s : State) (k : PacketKind) (x : Record) : (s.setRecord k x).u6 = s.u6 := by cases k <;> rfl
@[simp] theorem State.setRecord_u7 (s : State) (k : PacketKind) (x : Record) : (s.setRecord k x).u7 = s.u7 := by cases k <;> rfl
@[simp] theorem State.setRecord_loanU0 (s : State) (k : PacketKind) (x : Record) : (s.setRecord k x).loanU0 = s.loanU0 := by cases k <;> rfl
@[simp] theorem State.setRecord_loanU6 (s : State) (k : PacketKind) (x : Record) : (s.setRecord k x).loanU6 = s.loanU6 := by cases k <;> rfl
@[simp] theorem State.setRecord_pending (s : State) (k : PacketKind) (x : Record) : (s.setRecord k x).pending = s.pending := by cases k <;> rfl
@[simp] theorem State.setRecord_command_cmdRec (s : State) (x : Record) : (s.setRecord .command x).cmdRec = x := rfl
@[simp] theorem State.setRecord_command_tlmRec (s : State) (x : Record) : (s.setRecord .command x).tlmRec = s.tlmRec := rfl
@[simp] theorem State.setRecord_command_genRec (s : State) (x : Record) : (s.setRecord .command x).genRec = s.genRec := rfl
@[simp] theorem State.setRecord_telemetry_cmdRec (s : State) (x : Record) : (s.setRecord .telemetry x).cmdRec = s.cmdRec := rfl
@[simp] theorem State.setRecord_telemetry_tlmRec (s : State) (x : Record) : (s.setRecord .telemetry x).tlmRec = x := rfl
@[simp] theorem State.setRecord_telemetry_genRec (s : State) (x : Record) : (s.setRecord .telemetry x).genRec = s.genRec := rfl
@[simp] theorem State.setRecord_generic_cmdRec (s : State) (x : Record) : (s.setRecord .generic x).cmdRec = s.cmdRec := rfl
@[simp] theorem State.setRecord_generic_tlmRec (s : State) (x : Record) : (s.setRecord .generic x).tlmRec = s.tlmRec := rfl
@[simp] theorem State.setRecord_generic_genRec (s : State) (x : Record) : (s.setRecord .generic x).genRec = x := rfl
@[simp] theorem State.recordOf_setRecord_same (s : State) (k : PacketKind) (x : Record) : (s.setRecord k x).recordOf k = x := by cases k <;> rfl
theorem State.recordOf_setRecord_other (s : State) (x : Record) {k j : PacketKind} (h : j ≠ k) : (s.setRecord k x).recordOf j = s.recordOf j := by
  cases k <;> cases j <;> first | rfl | exact absurd rfl h
@[simp] theorem State.setRecord_recordOf_self (s : State) (k : PacketKind) : s.setRecord k (s.recordOf k) = s := by cases k <;> rfl
@[simp] theorem State.schemaOf_setRecord (s : State) (k j : PacketKind) (x : Record) : (s.setRecord k x).schemaOf j = s.schemaOf j := by
  cases k <;> cases j <;> rfl

/-! ### `State.freshRecord` -/

@[simp] theorem State.freshRecord_sch (s : State) (k : PacketKind) (x : Record) : (s.freshRecord k x).sch = s.sch := by cases k <;> rfl
@[simp] theorem State.freshRecord_tlmLayout (s : State) (k : PacketKind) (x : Record) : (s.freshRecord k x).tlmLayout = s.tlmLayout := by cases k <;> rfl
@[simp] theorem State.freshRecord_commandTable (s : State) (k : PacketKind) (x : Record) : (s.freshRecord k x).commandTable = s.commandTable := by cases k <;> rfl
@[simp] theorem State.freshRecord_kind (s : State) (k : PacketKind) (x : Record) : (s.freshRecord k x).kind = s.kind := by cases k <;> rfl
@[simp] theorem State.freshRecord_idx (s : State) (k : PacketKind) (x : Record) : (s.freshRecord k x).idx = s.idx := by cases k <;> rfl
@[simp] theorem State.freshRecord_fix (s : State) (k : PacketKind) (x : Record) : (s.freshRecord k x).fix = s.fix := by cases k <;> rfl
@[simp] theorem State.freshRecord_relay (s : State) (k : PacketKind) (x : Record) : (s.freshRecord k x).relay = s.relay := by cases k <;> rfl
@[simp] theorem State.freshRecord_name (s : State) (k : PacketKind) (x : Record) : (s.freshRecord k x).name = s.name := by cases k <;> rfl
@[simp] theorem State.freshRecord_vals (s : State) (k : PacketKind) (x : Record) : (s.freshRecord k x).vals = s.vals := by cases k <;> rfl
@[simp] theorem State.freshRecord_fbytes (s : State) (k : PacketKind) (x : Record) : (s.freshRecord k x).fbytes = s.fbytes := by cases k <;> rfl
@[simp] theorem State.freshRecord_pay (s : State) (k : PacketKind) (x : Record) : (s.freshRecord k x).pay = s.pay := by cases k <;> rfl
@[simp] theorem State.freshRecord_raw (s : State) (k : PacketKind) (x : Record) : (s.freshRecord k x).raw = s.raw := by cases k <;> rfl
@[simp] theorem State.freshRecord_escr (s : State) (k : PacketKind) (x : Record) : (s.freshRecord k x).escr = s.escr := by cases k <;> rfl
@[simp] theorem State.freshRecord_frame (s : State) (k : PacketKind) (x : Record) : (s.freshRecord k x).frame = s.frame := by cases k <;> rfl
@[simp] theorem State.freshRecord_rxck (s : State) (k : PacketKind) (x : Record) : (s.freshRecord k x).rxck = s.rxck := by cases k <;> rfl
@[simp] theorem State.freshRecord_count (s : State) (k : PacketKind) (x : Record) : (s.freshRecord k x).count = s.count := by cases k <;> rfl
@[simp] theorem State.freshRecord_ck (s : State) (k : PacketKind) (x : Record) : (s.freshRecord k x).ck = s.ck := by cases k <;> rfl
@[simp] theorem State.freshRecord_reading (s : State) (k : PacketKind) (x : Record) : (s.freshRecord k x).reading = s.reading := by cases k <;> rfl
@[simp] theorem State.freshRecord_evaluated (s : State) (k : PacketKind) (x : Record) : (s.freshRecord k x).evaluated = s.evaluated := by cases k <;> rfl
@[simp] theorem State.freshRecord_status (s : State) (k : PacketKind) (x : Record) : (s.freshRecord k x).status = s.status := by cases k <;> rfl
@[simp] theorem State.freshRecord_matched (s : State) (k : PacketKind) (x : Record) : (s.freshRecord k x).matched = s.matched := by cases k <;> rfl
@[simp] theorem State.freshRecord_u0 (s : State) (k : PacketKind) (x : Record) : (s.freshRecord k x).u0 = s.u0 := by cases k <;> rfl
@[simp] theorem State.freshRecord_u1 (s : State) (k : PacketKind) (x : Record) : (s.freshRecord k x).u1 = s.u1 := by cases k <;> rfl
@[simp] theorem State.freshRecord_u2 (s : State) (k : PacketKind) (x : Record) : (s.freshRecord k x).u2 = s.u2 := by cases k <;> rfl
@[simp] theorem State.freshRecord_u3 (s : State) (k : PacketKind) (x : Record) : (s.freshRecord k x).u3 = s.u3 := by cases k <;> rfl
@[simp] theorem State.freshRecord_u4 (s : State) (k : PacketKind) (x : Record) : (s.freshRecord k x).u4 = s.u4 := by cases k <;> rfl
@[simp] theorem State.freshRecord_u5 (s : State) (k : PacketKind) (x : Record) : (s.freshRecord k x).u5 = s.u5 := by cases k <;> rfl
@[simp] theorem State.freshRecord_u6 (s : State) (k : PacketKind) (x : Record) : (s.freshRecord k x).u6 = s.u6 := by cases k <;> rfl
@[simp] theorem State.freshRecord_u7 (s : State) (k : PacketKind) (x : Record) : (s.freshRecord k x).u7 = s.u7 := by cases k <;> rfl
@[simp] theorem State.freshRecord_pending (s : State) (k : PacketKind) (x : Record) : (s.freshRecord k x).pending = s.pending := by cases k <;> rfl
@[simp] theorem State.freshRecord_cmdRec (s : State) (k : PacketKind) (x : Record) : (s.freshRecord k x).cmdRec = (s.setRecord k x).cmdRec := rfl
@[simp] theorem State.freshRecord_tlmRec (s : State) (k : PacketKind) (x : Record) : (s.freshRecord k x).tlmRec = (s.setRecord k x).tlmRec := rfl
@[simp] theorem State.freshRecord_genRec (s : State) (k : PacketKind) (x : Record) : (s.freshRecord k x).genRec = (s.setRecord k x).genRec := rfl
@[simp] theorem State.freshRecord_loanU0 (s : State) (k : PacketKind) (x : Record) : (s.freshRecord k x).loanU0 = (s.loanU0 && s.u0.kind != k) := rfl
@[simp] theorem State.freshRecord_loanU6 (s : State) (k : PacketKind) (x : Record) : (s.freshRecord k x).loanU6 = (s.loanU6 && s.u6.kind != k) := rfl
@[simp] theorem State.recordOf_freshRecord (s : State) (k j : PacketKind) (x : Record) : (s.freshRecord k x).recordOf j = (s.setRecord k x).recordOf j := by
  cases j <;> rfl
@[simp] theorem State.schemaOf_freshRecord (s : State) (k j : PacketKind) (x : Record) : (s.freshRecord k x).schemaOf j = s.schemaOf j := by
  cases k <;> cases j <;> rfl
/-- A fresh Record is on loan to nobody. -/
@[simp] theorem State.lent_freshRecord_same (s : State) (k : PacketKind) (x : Record) : (s.freshRecord k x).lent k = false := by
  cases h0 : s.u0.kind <;> cases h6 : s.u6.kind <;> cases k <;> simp [State.lent, h0, h6]
/-- A fresh Record of one kind leaves the loans of the others. -/
theorem State.lent_freshRecord_other (s : State) (x : Record) {k j : PacketKind} (h : j ≠ k) : (s.freshRecord k x).lent j = s.lent j := by
  have e : ∀ a : PacketKind, ((a != k) && (a == j)) = (a == j) := fun a => by
    cases a <;> cases k <;> cases j <;> first | rfl | exact absurd rfl h
  simp [State.lent, Bool.and_assoc, e]

/-! ### `State.setValue` -/

@[simp] theorem State.setValue_sch (s : State) (v : FieldValue) : (s.setValue v).sch = s.sch := rfl
@[simp] theorem State.setValue_tlmLayout (s : State) (v : FieldValue) : (s.setValue v).tlmLayout = s.tlmLayout := rfl
@[simp] theorem State.setValue_commandTable (s : State) (v : FieldValue) : (s.setValue v).commandTable = s.commandTable := rfl
@[simp] theorem State.setValue_cmdRec (s : State) (v : FieldValue) : (s.setValue v).cmdRec = s.cmdRec := rfl
@[simp] theorem State.setValue_tlmRec (s : State) (v : FieldValue) : (s.setValue v).tlmRec = s.tlmRec := rfl
@[simp] theorem State.setValue_genRec (s : State) (v : FieldValue) : (s.setValue v).genRec = s.genRec := rfl
@[simp] theorem State.setValue_kind (s : State) (v : FieldValue) : (s.setValue v).kind = s.kind := rfl
@[simp] theorem State.setValue_idx (s : State) (v : FieldValue) : (s.setValue v).idx = s.idx := rfl
@[simp] theorem State.setValue_fix (s : State) (v : FieldValue) : (s.setValue v).fix = s.fix := rfl
@[simp] theorem State.setValue_relay (s : State) (v : FieldValue) : (s.setValue v).relay = s.relay := rfl
@[simp] theorem State.setValue_name (s : State) (v : FieldValue) : (s.setValue v).name = s.name := rfl
@[simp] theorem State.setValue_fbytes (s : State) (v : FieldValue) : (s.setValue v).fbytes = s.fbytes := rfl
@[simp] theorem State.setValue_pay (s : State) (v : FieldValue) : (s.setValue v).pay = s.pay := rfl
@[simp] theorem State.setValue_raw (s : State) (v : FieldValue) : (s.setValue v).raw = s.raw := rfl
@[simp] theorem State.setValue_escr (s : State) (v : FieldValue) : (s.setValue v).escr = s.escr := rfl
@[simp] theorem State.setValue_frame (s : State) (v : FieldValue) : (s.setValue v).frame = s.frame := rfl
@[simp] theorem State.setValue_rxck (s : State) (v : FieldValue) : (s.setValue v).rxck = s.rxck := rfl
@[simp] theorem State.setValue_count (s : State) (v : FieldValue) : (s.setValue v).count = s.count := rfl
@[simp] theorem State.setValue_ck (s : State) (v : FieldValue) : (s.setValue v).ck = s.ck := rfl
@[simp] theorem State.setValue_reading (s : State) (v : FieldValue) : (s.setValue v).reading = s.reading := rfl
@[simp] theorem State.setValue_evaluated (s : State) (v : FieldValue) : (s.setValue v).evaluated = s.evaluated := rfl
@[simp] theorem State.setValue_status (s : State) (v : FieldValue) : (s.setValue v).status = s.status := rfl
@[simp] theorem State.setValue_matched (s : State) (v : FieldValue) : (s.setValue v).matched = s.matched := rfl
@[simp] theorem State.setValue_u0 (s : State) (v : FieldValue) : (s.setValue v).u0 = s.u0 := rfl
@[simp] theorem State.setValue_u1 (s : State) (v : FieldValue) : (s.setValue v).u1 = s.u1 := rfl
@[simp] theorem State.setValue_u2 (s : State) (v : FieldValue) : (s.setValue v).u2 = s.u2 := rfl
@[simp] theorem State.setValue_u3 (s : State) (v : FieldValue) : (s.setValue v).u3 = s.u3 := rfl
@[simp] theorem State.setValue_u4 (s : State) (v : FieldValue) : (s.setValue v).u4 = s.u4 := rfl
@[simp] theorem State.setValue_u5 (s : State) (v : FieldValue) : (s.setValue v).u5 = s.u5 := rfl
@[simp] theorem State.setValue_u6 (s : State) (v : FieldValue) : (s.setValue v).u6 = s.u6 := rfl
@[simp] theorem State.setValue_u7 (s : State) (v : FieldValue) : (s.setValue v).u7 = s.u7 := rfl
@[simp] theorem State.setValue_loanU0 (s : State) (v : FieldValue) : (s.setValue v).loanU0 = s.loanU0 := rfl
@[simp] theorem State.setValue_loanU6 (s : State) (v : FieldValue) : (s.setValue v).loanU6 = s.loanU6 := rfl
@[simp] theorem State.setValue_pending (s : State) (v : FieldValue) : (s.setValue v).pending = s.pending := rfl
@[simp] theorem State.setValue_vals (s : State) (v : FieldValue) : (s.setValue v).vals = s.vals.put v := rfl

/-! ### `State.setStatus` -/

@[simp] theorem State.setStatus_sch (s : State) (st : Status) : (s.setStatus st).sch = s.sch := rfl
@[simp] theorem State.setStatus_tlmLayout (s : State) (st : Status) : (s.setStatus st).tlmLayout = s.tlmLayout := rfl
@[simp] theorem State.setStatus_commandTable (s : State) (st : Status) : (s.setStatus st).commandTable = s.commandTable := rfl
@[simp] theorem State.setStatus_cmdRec (s : State) (st : Status) : (s.setStatus st).cmdRec = s.cmdRec := rfl
@[simp] theorem State.setStatus_tlmRec (s : State) (st : Status) : (s.setStatus st).tlmRec = s.tlmRec := rfl
@[simp] theorem State.setStatus_genRec (s : State) (st : Status) : (s.setStatus st).genRec = s.genRec := rfl
@[simp] theorem State.setStatus_kind (s : State) (st : Status) : (s.setStatus st).kind = s.kind := rfl
@[simp] theorem State.setStatus_idx (s : State) (st : Status) : (s.setStatus st).idx = s.idx := rfl
@[simp] theorem State.setStatus_fix (s : State) (st : Status) : (s.setStatus st).fix = s.fix := rfl
@[simp] theorem State.setStatus_relay (s : State) (st : Status) : (s.setStatus st).relay = s.relay := rfl
@[simp] theorem State.setStatus_name (s : State) (st : Status) : (s.setStatus st).name = s.name := rfl
@[simp] theorem State.setStatus_vals (s : State) (st : Status) : (s.setStatus st).vals = s.vals := rfl
@[simp] theorem State.setStatus_fbytes (s : State) (st : Status) : (s.setStatus st).fbytes = s.fbytes := rfl
@[simp] theorem State.setStatus_pay (s : State) (st : Status) : (s.setStatus st).pay = s.pay := rfl
@[simp] theorem State.setStatus_raw (s : State) (st : Status) : (s.setStatus st).raw = s.raw := rfl
@[simp] theorem State.setStatus_escr (s : State) (st : Status) : (s.setStatus st).escr = s.escr := rfl
@[simp] theorem State.setStatus_frame (s : State) (st : Status) : (s.setStatus st).frame = s.frame := rfl
@[simp] theorem State.setStatus_rxck (s : State) (st : Status) : (s.setStatus st).rxck = s.rxck := rfl
@[simp] theorem State.setStatus_count (s : State) (st : Status) : (s.setStatus st).count = s.count := rfl
@[simp] theorem State.setStatus_ck (s : State) (st : Status) : (s.setStatus st).ck = s.ck := rfl
@[simp] theorem State.setStatus_reading (s : State) (st : Status) : (s.setStatus st).reading = s.reading := rfl
@[simp] theorem State.setStatus_evaluated (s : State) (st : Status) : (s.setStatus st).evaluated = s.evaluated := rfl
@[simp] theorem State.setStatus_matched (s : State) (st : Status) : (s.setStatus st).matched = s.matched := rfl
@[simp] theorem State.setStatus_u0 (s : State) (st : Status) : (s.setStatus st).u0 = s.u0 := rfl
@[simp] theorem State.setStatus_u1 (s : State) (st : Status) : (s.setStatus st).u1 = s.u1 := rfl
@[simp] theorem State.setStatus_u2 (s : State) (st : Status) : (s.setStatus st).u2 = s.u2 := rfl
@[simp] theorem State.setStatus_u3 (s : State) (st : Status) : (s.setStatus st).u3 = s.u3 := rfl
@[simp] theorem State.setStatus_u4 (s : State) (st : Status) : (s.setStatus st).u4 = s.u4 := rfl
@[simp] theorem State.setStatus_u5 (s : State) (st : Status) : (s.setStatus st).u5 = s.u5 := rfl
@[simp] theorem State.setStatus_u6 (s : State) (st : Status) : (s.setStatus st).u6 = s.u6 := rfl
@[simp] theorem State.setStatus_u7 (s : State) (st : Status) : (s.setStatus st).u7 = s.u7 := rfl
@[simp] theorem State.setStatus_loanU0 (s : State) (st : Status) : (s.setStatus st).loanU0 = s.loanU0 := rfl
@[simp] theorem State.setStatus_loanU6 (s : State) (st : Status) : (s.setStatus st).loanU6 = s.loanU6 := rfl
@[simp] theorem State.setStatus_pending (s : State) (st : Status) : (s.setStatus st).pending = s.pending := rfl
@[simp] theorem State.setStatus_status (s : State) (st : Status) : (s.setStatus st).status = some st := rfl

/-! ### `State.raise` -/

@[simp] theorem State.raise_sch (s : State) (e : DecodeError) : (s.raise e).sch = s.sch := rfl
@[simp] theorem State.raise_tlmLayout (s : State) (e : DecodeError) : (s.raise e).tlmLayout = s.tlmLayout := rfl
@[simp] theorem State.raise_commandTable (s : State) (e : DecodeError) : (s.raise e).commandTable = s.commandTable := rfl
@[simp] theorem State.raise_cmdRec (s : State) (e : DecodeError) : (s.raise e).cmdRec = s.cmdRec := rfl
@[simp] theorem State.raise_tlmRec (s : State) (e : DecodeError) : (s.raise e).tlmRec = s.tlmRec := rfl
@[simp] theorem State.raise_genRec (s : State) (e : DecodeError) : (s.raise e).genRec = s.genRec := rfl
@[simp] theorem State.raise_kind (s : State) (e : DecodeError) : (s.raise e).kind = s.kind := rfl
@[simp] theorem State.raise_idx (s : State) (e : DecodeError) : (s.raise e).idx = s.idx := rfl
@[simp] theorem State.raise_fix (s : State) (e : DecodeError) : (s.raise e).fix = s.fix := rfl
@[simp] theorem State.raise_relay (s : State) (e : DecodeError) : (s.raise e).relay = s.relay := rfl
@[simp] theorem State.raise_name (s : State) (e : DecodeError) : (s.raise e).name = s.name := rfl
@[simp] theorem State.raise_vals (s : State) (e : DecodeError) : (s.raise e).vals = s.vals := rfl
@[simp] theorem State.raise_fbytes (s : State) (e : DecodeError) : (s.raise e).fbytes = s.fbytes := rfl
@[simp] theorem State.raise_pay (s : State) (e : DecodeError) : (s.raise e).pay = s.pay := rfl
@[simp] theorem State.raise_raw (s : State) (e : DecodeError) : (s.raise e).raw = s.raw := rfl
@[simp] theorem State.raise_escr (s : State) (e : DecodeError) : (s.raise e).escr = s.escr := rfl
@[simp] theorem State.raise_frame (s : State) (e : DecodeError) : (s.raise e).frame = s.frame := rfl
@[simp] theorem State.raise_rxck (s : State) (e : DecodeError) : (s.raise e).rxck = s.rxck := rfl
@[simp] theorem State.raise_count (s : State) (e : DecodeError) : (s.raise e).count = s.count := rfl
@[simp] theorem State.raise_ck (s : State) (e : DecodeError) : (s.raise e).ck = s.ck := rfl
@[simp] theorem State.raise_reading (s : State) (e : DecodeError) : (s.raise e).reading = s.reading := rfl
@[simp] theorem State.raise_evaluated (s : State) (e : DecodeError) : (s.raise e).evaluated = s.evaluated := rfl
@[simp] theorem State.raise_matched (s : State) (e : DecodeError) : (s.raise e).matched = s.matched := rfl
@[simp] theorem State.raise_u0 (s : State) (e : DecodeError) : (s.raise e).u0 = s.u0 := rfl
@[simp] theorem State.raise_u1 (s : State) (e : DecodeError) : (s.raise e).u1 = s.u1 := rfl
@[simp] theorem State.raise_u2 (s : State) (e : DecodeError) : (s.raise e).u2 = s.u2 := rfl
@[simp] theorem State.raise_u3 (s : State) (e : DecodeError) : (s.raise e).u3 = s.u3 := rfl
@[simp] theorem State.raise_u4 (s : State) (e : DecodeError) : (s.raise e).u4 = s.u4 := rfl
@[simp] theorem State.raise_u5 (s : State) (e : DecodeError) : (s.raise e).u5 = s.u5 := rfl
@[simp] theorem State.raise_u6 (s : State) (e : DecodeError) : (s.raise e).u6 = s.u6 := rfl
@[simp] theorem State.raise_u7 (s : State) (e : DecodeError) : (s.raise e).u7 = s.u7 := rfl
@[simp] theorem State.raise_loanU0 (s : State) (e : DecodeError) : (s.raise e).loanU0 = s.loanU0 := rfl
@[simp] theorem State.raise_loanU6 (s : State) (e : DecodeError) : (s.raise e).loanU6 = s.loanU6 := rfl
@[simp] theorem State.raise_pending (s : State) (e : DecodeError) : (s.raise e).pending = s.pending := rfl
@[simp] theorem State.raise_status (s : State) (e : DecodeError) : (s.raise e).status = some e.status := rfl

/-! ### `State.deliver` -/

@[simp] theorem State.deliver_sch (s : State) (k : PacketKind) (r : FrameResult) : (s.deliver k r).sch = s.sch := by cases r <;> cases k <;> rfl
@[simp] theorem State.deliver_tlmLayout (s : State) (k : PacketKind) (r : FrameResult) : (s.deliver k r).tlmLayout = s.tlmLayout := by cases r <;> cases k <;> rfl
@[simp] theorem State.deliver_commandTable (s : State) (k : PacketKind) (r : FrameResult) : (s.deliver k r).commandTable = s.commandTable := by cases r <;> cases k <;> rfl
@[simp] theorem State.deliver_kind (s : State) (k : PacketKind) (r : FrameResult) : (s.deliver k r).kind = s.kind := by cases r <;> cases k <;> rfl
@[simp] theorem State.deliver_idx (s : State) (k : PacketKind) (r : FrameResult) : (s.deliver k r).idx = s.idx := by cases r <;> cases k <;> rfl
@[simp] theorem State.deliver_fix (s : State) (k : PacketKind) (r : FrameResult) : (s.deliver k r).fix = s.fix := by cases r <;> cases k <;> rfl
@[simp] theorem State.deliver_relay (s : State) (k : PacketKind) (r : FrameResult) : (s.deliver k r).relay = s.relay := by cases r <;> cases k <;> rfl
@[simp] theorem State.deliver_name (s : State) (k : PacketKind) (r : FrameResult) : (s.deliver k r).name = s.name := by cases r <;> cases k <;> rfl
@[simp] theorem State.deliver_vals (s : State) (k : PacketKind) (r : FrameResult) : (s.deliver k r).vals = s.vals := by cases r <;> cases k <;> rfl
@[simp] theorem State.deliver_fbytes (s : State) (k : PacketKind) (r : FrameResult) : (s.deliver k r).fbytes = s.fbytes := by cases r <;> cases k <;> rfl
@[simp] theorem State.deliver_pay (s : State) (k : PacketKind) (r : FrameResult) : (s.deliver k r).pay = s.pay := by cases r <;> cases k <;> rfl
@[simp] theorem State.deliver_raw (s : State) (k : PacketKind) (r : FrameResult) : (s.deliver k r).raw = s.raw := by cases r <;> cases k <;> rfl
@[simp] theorem State.deliver_escr (s : State) (k : PacketKind) (r : FrameResult) : (s.deliver k r).escr = s.escr := by cases r <;> cases k <;> rfl
@[simp] theorem State.deliver_frame (s : State) (k : PacketKind) (r : FrameResult) : (s.deliver k r).frame = s.frame := by cases r <;> cases k <;> rfl
@[simp] theorem State.deliver_rxck (s : State) (k : PacketKind) (r : FrameResult) : (s.deliver k r).rxck = s.rxck := by cases r <;> cases k <;> rfl
@[simp] theorem State.deliver_count (s : State) (k : PacketKind) (r : FrameResult) : (s.deliver k r).count = s.count := by cases r <;> cases k <;> rfl
@[simp] theorem State.deliver_ck (s : State) (k : PacketKind) (r : FrameResult) : (s.deliver k r).ck = s.ck := by cases r <;> cases k <;> rfl
@[simp] theorem State.deliver_reading (s : State) (k : PacketKind) (r : FrameResult) : (s.deliver k r).reading = s.reading := by cases r <;> cases k <;> rfl
@[simp] theorem State.deliver_evaluated (s : State) (k : PacketKind) (r : FrameResult) : (s.deliver k r).evaluated = s.evaluated := by cases r <;> cases k <;> rfl
@[simp] theorem State.deliver_matched (s : State) (k : PacketKind) (r : FrameResult) : (s.deliver k r).matched = s.matched := by cases r <;> cases k <;> rfl
@[simp] theorem State.deliver_u0 (s : State) (k : PacketKind) (r : FrameResult) : (s.deliver k r).u0 = s.u0 := by cases r <;> cases k <;> rfl
@[simp] theorem State.deliver_u1 (s : State) (k : PacketKind) (r : FrameResult) : (s.deliver k r).u1 = s.u1 := by cases r <;> cases k <;> rfl
@[simp] theorem State.deliver_u2 (s : State) (k : PacketKind) (r : FrameResult) : (s.deliver k r).u2 = s.u2 := by cases r <;> cases k <;> rfl
@[simp] theorem State.deliver_u3 (s : State) (k : PacketKind) (r : FrameResult) : (s.deliver k r).u3 = s.u3 := by cases r <;> cases k <;> rfl
@[simp] theorem State.deliver_u4 (s : State) (k : PacketKind) (r : FrameResult) : (s.deliver k r).u4 = s.u4 := by cases r <;> cases k <;> rfl
@[simp] theorem State.deliver_u5 (s : State) (k : PacketKind) (r : FrameResult) : (s.deliver k r).u5 = s.u5 := by cases r <;> cases k <;> rfl
@[simp] theorem State.deliver_u6 (s : State) (k : PacketKind) (r : FrameResult) : (s.deliver k r).u6 = s.u6 := by cases r <;> cases k <;> rfl
@[simp] theorem State.deliver_u7 (s : State) (k : PacketKind) (r : FrameResult) : (s.deliver k r).u7 = s.u7 := by cases r <;> cases k <;> rfl
@[simp] theorem State.deliver_pending (s : State) (k : PacketKind) (r : FrameResult) : (s.deliver k r).pending = s.pending := by cases r <;> cases k <;> rfl
@[simp] theorem State.deliver_ok_status (s : State) (k : PacketKind) (x : Record) : (s.deliver k (.ok x)).status = some .ok := rfl
@[simp] theorem State.deliver_ok_recordOf (s : State) (k : PacketKind) (x : Record) : (s.deliver k (.ok x)).recordOf k = x := by cases k <;> rfl
@[simp] theorem State.deliver_err (s : State) (k : PacketKind) (e : DecodeError) : s.deliver k (.err e) = s.raise e := rfl

/-! ### `State.setBuffer` -/

@[simp] theorem State.setBuffer_sch (s : State) (n : BufferName) (bs : List Byte) : (s.setBuffer n bs).sch = s.sch := by cases n <;> rfl
@[simp] theorem State.setBuffer_tlmLayout (s : State) (n : BufferName) (bs : List Byte) : (s.setBuffer n bs).tlmLayout = s.tlmLayout := by cases n <;> rfl
@[simp] theorem State.setBuffer_commandTable (s : State) (n : BufferName) (bs : List Byte) : (s.setBuffer n bs).commandTable = s.commandTable := by cases n <;> rfl
@[simp] theorem State.setBuffer_cmdRec (s : State) (n : BufferName) (bs : List Byte) : (s.setBuffer n bs).cmdRec = s.cmdRec := by cases n <;> rfl
@[simp] theorem State.setBuffer_tlmRec (s : State) (n : BufferName) (bs : List Byte) : (s.setBuffer n bs).tlmRec = s.tlmRec := by cases n <;> rfl
@[simp] theorem State.setBuffer_genRec (s : State) (n : BufferName) (bs : List Byte) : (s.setBuffer n bs).genRec = s.genRec := by cases n <;> rfl
@[simp] theorem State.setBuffer_kind (s : State) (n : BufferName) (bs : List Byte) : (s.setBuffer n bs).kind = s.kind := by cases n <;> rfl
@[simp] theorem State.setBuffer_idx (s : State) (n : BufferName) (bs : List Byte) : (s.setBuffer n bs).idx = s.idx := by cases n <;> rfl
@[simp] theorem State.setBuffer_fix (s : State) (n : BufferName) (bs : List Byte) : (s.setBuffer n bs).fix = s.fix := by cases n <;> rfl
@[simp] theorem State.setBuffer_relay (s : State) (n : BufferName) (bs : List Byte) : (s.setBuffer n bs).relay = s.relay := by cases n <;> rfl
@[simp] theorem State.setBuffer_name (s : State) (n : BufferName) (bs : List Byte) : (s.setBuffer n bs).name = s.name := by cases n <;> rfl
@[simp] theorem State.setBuffer_vals (s : State) (n : BufferName) (bs : List Byte) : (s.setBuffer n bs).vals = s.vals := by cases n <;> rfl
@[simp] theorem State.setBuffer_fbytes (s : State) (n : BufferName) (bs : List Byte) : (s.setBuffer n bs).fbytes = s.fbytes := by cases n <;> rfl
@[simp] theorem State.setBuffer_rxck (s : State) (n : BufferName) (bs : List Byte) : (s.setBuffer n bs).rxck = s.rxck := by cases n <;> rfl
@[simp] theorem State.setBuffer_count (s : State) (n : BufferName) (bs : List Byte) : (s.setBuffer n bs).count = s.count := by cases n <;> rfl
@[simp] theorem State.setBuffer_ck (s : State) (n : BufferName) (bs : List Byte) : (s.setBuffer n bs).ck = s.ck := by cases n <;> rfl
@[simp] theorem State.setBuffer_reading (s : State) (n : BufferName) (bs : List Byte) : (s.setBuffer n bs).reading = s.reading := by cases n <;> rfl
@[simp] theorem State.setBuffer_evaluated (s : State) (n : BufferName) (bs : List Byte) : (s.setBuffer n bs).evaluated = s.evaluated := by cases n <;> rfl
@[simp] theorem State.setBuffer_status (s : State) (n : BufferName) (bs : List Byte) : (s.setBuffer n bs).status = s.status := by cases n <;> rfl
@[simp] theorem State.setBuffer_matched (s : State) (n : BufferName) (bs : List Byte) : (s.setBuffer n bs).matched = s.matched := by cases n <;> rfl
@[simp] theorem State.setBuffer_u0 (s : State) (n : BufferName) (bs : List Byte) : (s.setBuffer n bs).u0 = s.u0 := by cases n <;> rfl
@[simp] theorem State.setBuffer_u1 (s : State) (n : BufferName) (bs : List Byte) : (s.setBuffer n bs).u1 = s.u1 := by cases n <;> rfl
@[simp] theorem State.setBuffer_u2 (s : State) (n : BufferName) (bs : List Byte) : (s.setBuffer n bs).u2 = s.u2 := by cases n <;> rfl
@[simp] theorem State.setBuffer_u3 (s : State) (n : BufferName) (bs : List Byte) : (s.setBuffer n bs).u3 = s.u3 := by cases n <;> rfl
@[simp] theorem State.setBuffer_u4 (s : State) (n : BufferName) (bs : List Byte) : (s.setBuffer n bs).u4 = s.u4 := by cases n <;> rfl
@[simp] theorem State.setBuffer_u5 (s : State) (n : BufferName) (bs : List Byte) : (s.setBuffer n bs).u5 = s.u5 := by cases n <;> rfl
@[simp] theorem State.setBuffer_u6 (s : State) (n : BufferName) (bs : List Byte) : (s.setBuffer n bs).u6 = s.u6 := by cases n <;> rfl
@[simp] theorem State.setBuffer_u7 (s : State) (n : BufferName) (bs : List Byte) : (s.setBuffer n bs).u7 = s.u7 := by cases n <;> rfl
@[simp] theorem State.setBuffer_loanU0 (s : State) (n : BufferName) (bs : List Byte) : (s.setBuffer n bs).loanU0 = s.loanU0 := by cases n <;> rfl
@[simp] theorem State.setBuffer_loanU6 (s : State) (n : BufferName) (bs : List Byte) : (s.setBuffer n bs).loanU6 = s.loanU6 := by cases n <;> rfl
@[simp] theorem State.setBuffer_pending (s : State) (n : BufferName) (bs : List Byte) : (s.setBuffer n bs).pending = s.pending := by cases n <;> rfl
@[simp] theorem State.setBuffer_pay_pay (s : State) (bs : List Byte) : (s.setBuffer .pay bs).pay = bs := rfl
@[simp] theorem State.setBuffer_pay_raw (s : State) (bs : List Byte) : (s.setBuffer .pay bs).raw = s.raw := rfl
@[simp] theorem State.setBuffer_pay_escr (s : State) (bs : List Byte) : (s.setBuffer .pay bs).escr = s.escr := rfl
@[simp] theorem State.setBuffer_pay_frame (s : State) (bs : List Byte) : (s.setBuffer .pay bs).frame = s.frame := rfl
@[simp] theorem State.setBuffer_raw_pay (s : State) (bs : List Byte) : (s.setBuffer .raw bs).pay = s.pay := rfl
@[simp] theorem State.setBuffer_raw_raw (s : State) (bs : List Byte) : (s.setBuffer .raw bs).raw = bs := rfl
@[simp] theorem State.setBuffer_raw_escr (s : State) (bs : List Byte) : (s.setBuffer .raw bs).escr = s.escr := rfl
@[simp] theorem State.setBuffer_raw_frame (s : State) (bs : List Byte) : (s.setBuffer .raw bs).frame = s.frame := rfl
@[simp] theorem State.setBuffer_escr_pay (s : State) (bs : List Byte) : (s.setBuffer .escr bs).pay = s.pay := rfl
@[simp] theorem State.setBuffer_escr_raw (s : State) (bs : List Byte) : (s.setBuffer .escr bs).raw = s.raw := rfl
@[simp] theorem State.setBuffer_escr_escr (s : State) (bs : List Byte) : (s.setBuffer .escr bs).escr = bs := rfl
@[simp] theorem State.setBuffer_escr_frame (s : State) (bs : List Byte) : (s.setBuffer .escr bs).frame = s.frame := rfl
@[simp] theorem State.setBuffer_frame_pay (s : State) (bs : List Byte) : (s.setBuffer .frame bs).pay = s.pay := rfl
@[simp] theorem State.setBuffer_frame_raw (s : State) (bs : List Byte) : (s.setBuffer .frame bs).raw = s.raw := rfl
@[simp] theorem State.setBuffer_frame_escr (s : State) (bs : List Byte) : (s.setBuffer .frame bs).escr = s.escr := rfl
@[simp] theorem State.setBuffer_frame_frame (s : State) (bs : List Byte) : (s.setBuffer .frame bs).frame = bs := rfl

/-! ### `State.withFetchWord` -/

@[simp] theorem State.withFetchWord_sch (s : State) (nbits w : Nat) : (s.withFetchWord nbits w).sch = s.sch := rfl
@[simp] theorem State.withFetchWord_tlmLayout (s : State) (nbits w : Nat) : (s.withFetchWord nbits w).tlmLayout = s.tlmLayout := rfl
@[simp] theorem State.withFetchWord_commandTable (s : State) (nbits w : Nat) : (s.withFetchWord nbits w).commandTable = s.commandTable := rfl
@[simp] theorem State.withFetchWord_cmdRec (s : State) (nbits w : Nat) : (s.withFetchWord nbits w).cmdRec = s.cmdRec := rfl
@[simp] theorem State.withFetchWord_tlmRec (s : State) (nbits w : Nat) : (s.withFetchWord nbits w).tlmRec = s.tlmRec := rfl
@[simp] theorem State.withFetchWord_genRec (s : State) (nbits w : Nat) : (s.withFetchWord nbits w).genRec = s.genRec := rfl
@[simp] theorem State.withFetchWord_kind (s : State) (nbits w : Nat) : (s.withFetchWord nbits w).kind = s.kind := rfl
@[simp] theorem State.withFetchWord_idx (s : State) (nbits w : Nat) : (s.withFetchWord nbits w).idx = s.idx := rfl
@[simp] theorem State.withFetchWord_fix (s : State) (nbits w : Nat) : (s.withFetchWord nbits w).fix = s.fix := rfl
@[simp] theorem State.withFetchWord_relay (s : State) (nbits w : Nat) : (s.withFetchWord nbits w).relay = s.relay := rfl
@[simp] theorem State.withFetchWord_name (s : State) (nbits w : Nat) : (s.withFetchWord nbits w).name = s.name := rfl
@[simp] theorem State.withFetchWord_vals (s : State) (nbits w : Nat) : (s.withFetchWord nbits w).vals = s.vals := rfl
@[simp] theorem State.withFetchWord_fbytes (s : State) (nbits w : Nat) : (s.withFetchWord nbits w).fbytes = s.fbytes := rfl
@[simp] theorem State.withFetchWord_pay (s : State) (nbits w : Nat) : (s.withFetchWord nbits w).pay = s.pay := rfl
@[simp] theorem State.withFetchWord_raw (s : State) (nbits w : Nat) : (s.withFetchWord nbits w).raw = s.raw := rfl
@[simp] theorem State.withFetchWord_escr (s : State) (nbits w : Nat) : (s.withFetchWord nbits w).escr = s.escr := rfl
@[simp] theorem State.withFetchWord_frame (s : State) (nbits w : Nat) : (s.withFetchWord nbits w).frame = s.frame := rfl
@[simp] theorem State.withFetchWord_rxck (s : State) (nbits w : Nat) : (s.withFetchWord nbits w).rxck = s.rxck := rfl
@[simp] theorem State.withFetchWord_count (s : State) (nbits w : Nat) : (s.withFetchWord nbits w).count = s.count := rfl
@[simp] theorem State.withFetchWord_ck (s : State) (nbits w : Nat) : (s.withFetchWord nbits w).ck = s.ck := rfl
@[simp] theorem State.withFetchWord_reading (s : State) (nbits w : Nat) : (s.withFetchWord nbits w).reading = s.reading := rfl
@[simp] theorem State.withFetchWord_evaluated (s : State) (nbits w : Nat) : (s.withFetchWord nbits w).evaluated = s.evaluated := rfl
@[simp] theorem State.withFetchWord_status (s : State) (nbits w : Nat) : (s.withFetchWord nbits w).status = s.status := rfl
@[simp] theorem State.withFetchWord_matched (s : State) (nbits w : Nat) : (s.withFetchWord nbits w).matched = s.matched := rfl
@[simp] theorem State.withFetchWord_u0 (s : State) (nbits w : Nat) : (s.withFetchWord nbits w).u0 = s.u0 := rfl
@[simp] theorem State.withFetchWord_u1 (s : State) (nbits w : Nat) : (s.withFetchWord nbits w).u1 = s.u1 := rfl
@[simp] theorem State.withFetchWord_u2 (s : State) (nbits w : Nat) : (s.withFetchWord nbits w).u2 = s.u2 := rfl
@[simp] theorem State.withFetchWord_u3 (s : State) (nbits w : Nat) : (s.withFetchWord nbits w).u3 = s.u3 := rfl
@[simp] theorem State.withFetchWord_u4 (s : State) (nbits w : Nat) : (s.withFetchWord nbits w).u4 = s.u4 := rfl
@[simp] theorem State.withFetchWord_u5 (s : State) (nbits w : Nat) : (s.withFetchWord nbits w).u5 = s.u5 := rfl
@[simp] theorem State.withFetchWord_u6 (s : State) (nbits w : Nat) : (s.withFetchWord nbits w).u6 = s.u6 := rfl
@[simp] theorem State.withFetchWord_u7 (s : State) (nbits w : Nat) : (s.withFetchWord nbits w).u7 = s.u7 := rfl
@[simp] theorem State.withFetchWord_loanU0 (s : State) (nbits w : Nat) : (s.withFetchWord nbits w).loanU0 = s.loanU0 := rfl
@[simp] theorem State.withFetchWord_loanU6 (s : State) (nbits w : Nat) : (s.withFetchWord nbits w).loanU6 = s.loanU6 := rfl
@[simp] theorem State.withFetchWord_pending (s : State) (nbits w : Nat) : (s.withFetchWord nbits w).pending = issueWord nbits w s.pending := rfl

/-! ### the value ports -/

@[simp] theorem ValuePorts.get_put_same (p : ValuePorts) (v : FieldValue) : (p.put v).get v.type = v := by cases v <;> rfl
theorem ValuePorts.get_put_other (p : ValuePorts) (v : FieldValue) {T : FieldType} (h : T ≠ v.type) : (p.put v).get T = p.get T := by
  cases v <;> cases T <;> first | rfl | exact absurd rfl h
@[simp] theorem ValuePorts.type_get (p : ValuePorts) (T : FieldType) : (p.get T).type = T := by cases T <;> rfl

end Sys2Proof.Machine
end

