-- ==== Sys2Proof/Laws/Buffers.lean ====
section
/-! SUPPORT. One lemma per shared operation over buffers, schemas and Records: what it answers, and how long. -/

namespace Sys2Proof.Machine

theorem FieldType.width_pos (T : FieldType) : 0 < T.width := by cases T <;> decide

theorem FieldType.width_le_four (T : FieldType) : T.width ≤ 4 := by cases T <;> decide

@[simp] theorem FieldType.zero_type (T : FieldType) : T.zero.type = T := by cases T <;> rfl

@[simp] theorem fieldTypeOfTag_tag (T : FieldType) : fieldTypeOfTag T.tag = some T := by cases T <;> rfl

@[simp] theorem schemaOfRecord_nil : schemaOfRecord [] = [] := rfl

@[simp] theorem schemaOfRecord_cons (v : FieldValue) (x : Record) : schemaOfRecord (v :: x) = v.type :: schemaOfRecord x := rfl

@[simp] theorem schemaOfRecord_append (x y : Record) : schemaOfRecord (x ++ y) = schemaOfRecord x ++ schemaOfRecord y := List.map_append

theorem numBytes_append (a b : Schema) : numBytes (a ++ b) = numBytes a + numBytes b := by
  induction a with
  | nil => simp [numBytes]
  | cons T a ih => simp [numBytes, ih, Nat.add_assoc]

/-- `numBytes` counts the fields before `i`, field `i` and the fields after it. -/
theorem numBytes_split (sch : Schema) (i : Nat) : numBytes sch = offset sch i + numBytes (sch.drop i) := by
  rw [offset, ← numBytes_append, List.take_append_drop]

@[simp] theorem offset_zero (sch : Schema) : offset sch 0 = 0 := rfl

theorem offset_cons (T : FieldType) (sch : Schema) (i : Nat) : offset (T :: sch) (i + 1) = T.width + offset sch i := rfl

theorem slice_length (buf : List Byte) (lo hi : Nat) : (slice buf lo hi).length = min hi buf.length - lo := by simp [slice]

theorem slice_append_right (a b : List Byte) (lo hi : Nat) : slice (a ++ b) (a.length + lo) (a.length + hi) = slice b lo hi := by
  simp [slice, List.take_append, List.drop_append]

/-- Bit `i` of the assembled bytes: of the first byte below 8, of the bytes after it above. -/
theorem assemble_cons_getLsbD (b : Byte) (bs : List Byte) (i : Nat) :
    (assemble (b :: bs)).getLsbD i = if i < 8 then b.getLsbD i else (decide (i < 32) && (assemble bs).getLsbD (i - 8)) := by
  refine (BitVec.getLsbD_append (x := (assemble bs).extractLsb' 0 24) (y := b)).trans ?_
  by_cases h : i < 8
  · simp [h]
  · have : i - 8 < 24 ↔ i < 32 := by omega
    simp [h, this]

theorem assemble_cons_low (b : Byte) (bs : List Byte) : (assemble (b :: bs)).extractLsb' 0 8 = b := by
  ext i hi
  simp [assemble_cons_getLsbD, hi, BitVec.getLsbD_eq_getElem]

theorem assemble_cons_high (b : Byte) (bs : List Byte) : (assemble (b :: bs)).extractLsb' 8 24 = (assemble bs).extractLsb' 0 24 := by
  ext i hi
  have h : 8 + i < 32 := by omega
  rw [BitVec.getElem_extractLsb', BitVec.getElem_extractLsb', assemble_cons_getLsbD]
  simp [h]

theorem pack_length (v : FieldValue) : (pack v).length = v.type.width := by cases v <;> rfl

@[simp] theorem fieldOfBits_type (T : FieldType) (w : Word) : (fieldOfBits T w).type = T := by cases T <;> rfl

@[simp] theorem unpack_type (T : FieldType) (bs : List Byte) : (unpack T bs).type = T := fieldOfBits_type T _

theorem packRecord_append (x y : Record) : packRecord (x ++ y) = packRecord x ++ packRecord y := by
  induction x with
  | nil => rfl
  | cons v x ih => simp [packRecord, ih]

theorem packRecord_length (x : Record) : (packRecord x).length = numBytes (schemaOfRecord x) := by
  induction x with
  | nil => rfl
  | cons v x ih => simp [packRecord, numBytes, pack_length, ih]

@[simp] theorem unpackRecord_schema (sch : Schema) (bs : List Byte) : schemaOfRecord (unpackRecord sch bs) = sch := by
  induction sch generalizing bs with
  | nil => rfl
  | cons T sch ih => simp [unpackRecord, ih]

@[simp] theorem newRecord_schema (sch : Schema) : schemaOfRecord (newRecord sch) = sch := by
  unfold newRecord
  split
  · next h => subst h; rfl
  · simp [schemaOfRecord, Function.comp_def]

/-- A write of a register of the same type keeps the Record's schema. -/
theorem schemaOfRecord_set {x : Record} {i : Nat} {v old : FieldValue} (h : x[i]? = some old) (hv : v.type = old.type) :
    schemaOfRecord (x.set i v) = schemaOfRecord x := by
  refine List.ext_getElem? fun j => ?_
  by_cases hj : j = i
  · obtain ⟨hlt, rfl⟩ := List.getElem?_eq_some_iff.1 h
    subst hj; simp [schemaOfRecord, List.map_set, hv, hlt]
  · simp [schemaOfRecord, List.map_set, List.getElem?_set_ne (Ne.symm hj)]

/-- What `fieldIndex` answers is a field of that name. -/
theorem fieldIndex_name {n : FieldName} {l : Layout} {i : Nat} (h : fieldIndex n l = some i) : ∃ T, l[i]? = some (n, T) := by
  induction l generalizing i with
  | nil => simp [fieldIndex] at h
  | cons a l ih =>
    obtain ⟨m, T⟩ := a
    rw [fieldIndex] at h
    split at h
    · next hm => cases h; exact ⟨T, by simp [hm]⟩
    · obtain ⟨j, hj, rfl⟩ := Option.map_eq_some_iff.1 h
      simpa using ih hj

/-- A name that `fieldIndex` does not find is no field's. -/
theorem fieldIndex_none {n : FieldName} {l : Layout} (h : fieldIndex n l = none) : ∀ T, (n, T) ∉ l := by
  induction l with
  | nil => simp
  | cons a l ih =>
    obtain ⟨m, U⟩ := a
    rw [fieldIndex] at h
    split at h
    · cases h
    · next hm =>
      intro T hT
      rcases List.mem_cons.1 hT with hT | hT
      · cases hT; exact hm rfl
      · exact ih (Option.map_eq_none_iff.1 h) T hT

/-- What `lookupCommand` answers is an entry of the table. -/
theorem lookupCommand_mem {n : CommandName} {t : CommandTable} {i : Byte} (h : lookupCommand n t = some i) : (n, i) ∈ t := by
  induction t with
  | nil => simp [lookupCommand] at h
  | cons a t ih =>
    obtain ⟨m, j⟩ := a
    rw [lookupCommand] at h
    split at h
    · next hm => cases h; subst hm; exact List.mem_cons_self
    · exact List.mem_cons_of_mem _ (ih h)

/-- The word sum of an even number of bytes and what follows adds up. -/
theorem wordSum_append {p : List Byte} (h : p.length % 2 = 0) (q : List Byte) : wordSum (p ++ q) = wordSum p + wordSum q := by
  induction p using wordSum.induct with
  | case1 => simp [wordSum]
  | case2 => simp at h
  | case3 lo hi p ih =>
    simp only [List.cons_append, wordSum]
    rw [ih (by simp at h; omega), BitVec.add_assoc]

theorem checksumMatch_eq_one (p : List Byte) (rxck : Half) : checksumMatch p rxck = 1 ↔ checksum p = rxck := by
  unfold checksumMatch; split <;> simp_all

/-- The three cases of the escape of one byte. -/
theorem escapeByte_cases (b : Byte) : (b = Config.delim ∧ escapeByte b = [Config.esc, Config.tDelim]) ∨
    (b = Config.esc ∧ escapeByte b = [Config.esc, Config.tEsc]) ∨ (b ≠ Config.delim ∧ b ≠ Config.esc ∧ escapeByte b = [b]) := by
  unfold escapeByte
  split
  · exact .inl ⟨by assumption, rfl⟩
  · split
    · exact .inr (.inl ⟨by assumption, rfl⟩)
    · exact .inr (.inr ⟨by assumption, by assumption, rfl⟩)

theorem escape_append (a b : List Byte) : escape (a ++ b) = escape a ++ escape b := by
  induction a with
  | nil => rfl
  | cons x a ih => simp [escape, ih]

theorem escape_length_bounds (s : List Byte) : s.length ≤ (escape s).length ∧ (escape s).length ≤ 2 * s.length := by
  induction s with
  | nil => simp [escape]
  | cons b s ih => rcases escapeByte_cases b with ⟨-, h⟩ | ⟨-, h⟩ | ⟨-, -, h⟩ <;> simp [escape, h] <;> omega

theorem framingGood_iff (f : List Byte) : framingGood f = true ↔ 3 ≤ f.length ∧ f.head? = some Config.delim ∧ f.getLast? = some Config.delim := by
  simp [framingGood, and_assoc]

theorem unescapedRegion_length (pay : List Byte) : (unescapedRegion pay).length = pay.length + 2 := by simp [unescapedRegion, leBytes16]

/-- A Record that a decode delivers has the schema of the decode. -/
theorem frameDecode_schema {sch : Schema} {f : List Byte} {x : Record} (h : frameDecode sch f = .ok x) : schemaOfRecord x = sch := by
  unfold frameDecode at h
  simp only at h
  repeat' split at h
  all_goals first | (cases h; exact unpackRecord_schema _ _) | cases h

end Sys2Proof.Machine
end

