-- ==== Sys2Proof/Laws/PerInstr.lean ====
section
/-! SUPPORT. Per-instruction laws about the instruction as syntax: the lengths and the operation numbers of the encodings (30_encoding.md R46, R47). -/

namespace Sys2Proof.Laws.EncodedLength

/-- An escape pair is two bytes, every other instruction one; an operation number fits its six bits. -/
def Statement (i : Instr) : Prop :=
  (encode i).length = wire16Length i ∧ (formatOf i = .op6 → ∀ b ∈ encode i, b.toNat < 0x40)

theorem packBool : Statement .packBool := ⟨rfl, by decide⟩

theorem packByte : Statement .packByte := ⟨rfl, by decide⟩

theorem packI16 : Statement .packI16 := ⟨rfl, by decide⟩

theorem packU16 : Statement .packU16 := ⟨rfl, by decide⟩

theorem packI32 : Statement .packI32 := ⟨rfl, by decide⟩

theorem packU32 : Statement .packU32 := ⟨rfl, by decide⟩

theorem packF32 : Statement .packF32 := ⟨rfl, by decide⟩

theorem unpackBool : Statement .unpackBool := ⟨rfl, by decide⟩

theorem unpackByte : Statement .unpackByte := ⟨rfl, by decide⟩

theorem unpackI16 : Statement .unpackI16 := ⟨rfl, by decide⟩

theorem unpackU16 : Statement .unpackU16 := ⟨rfl, by decide⟩

theorem unpackI32 : Statement .unpackI32 := ⟨rfl, by decide⟩

theorem unpackU32 : Statement .unpackU32 := ⟨rfl, by decide⟩

theorem unpackF32 : Statement .unpackF32 := ⟨rfl, by decide⟩

theorem schNumbytes : Statement .schNumbytes := ⟨rfl, by decide⟩

theorem schOffset : Statement .schOffset := ⟨rfl, by decide⟩

theorem recNew : Statement .recNew := ⟨rfl, by decide⟩

theorem recSet : Statement .recSet := ⟨rfl, by decide⟩

theorem recGet : Statement .recGet := ⟨rfl, by decide⟩

theorem schEncode : Statement .schEncode := ⟨rfl, by decide⟩

theorem schDecode : Statement .schDecode := ⟨rfl, by decide⟩

theorem csumGen : Statement .csumGen := ⟨rfl, by decide⟩

theorem csumVfy : Statement .csumVfy := ⟨rfl, by decide⟩

theorem kissEsc : Statement .kissEsc := ⟨rfl, by decide⟩

theorem kissUnesc : Statement .kissUnesc := ⟨rfl, by decide⟩

theorem tlmFmt : Statement .tlmFmt := ⟨rfl, by decide⟩

theorem cmdParse : Statement .cmdParse := ⟨rfl, by decide⟩

theorem frmEnc : Statement .frmEnc := ⟨rfl, by decide⟩

theorem frmDec : Statement .frmDec := ⟨rfl, by decide⟩

theorem cmdFmt : Statement .cmdFmt := ⟨rfl, by decide⟩

theorem tlmParse : Statement .tlmParse := ⟨rfl, by decide⟩

theorem accPressure : Statement .accPressure := ⟨rfl, by decide⟩

theorem accAltitude : Statement .accAltitude := ⟨rfl, by decide⟩

theorem accSpeed : Statement .accSpeed := ⟨rfl, by decide⟩

theorem accLat : Statement .accLat := ⟨rfl, by decide⟩

theorem accLon : Statement .accLon := ⟨rfl, by decide⟩

theorem accResettime : Statement .accResettime := ⟨rfl, by decide⟩

theorem accDataage : Statement .accDataage := ⟨rfl, by decide⟩

theorem accRelay : Statement .accRelay := ⟨rfl, by decide⟩

theorem cmdLookup : Statement .cmdLookup := ⟨rfl, by decide⟩

theorem keeDelim : Statement .keeDelim := ⟨rfl, by decide⟩

theorem keeEsc : Statement .keeEsc := ⟨rfl, by decide⟩

theorem keeLit (b : Byte) : Statement (.keeLit b) := ⟨rfl, fun h => nomatch h⟩

theorem kedPairDelim : Statement .kedPairDelim := ⟨rfl, by decide⟩

theorem kedPairEsc : Statement .kedPairEsc := ⟨rfl, by decide⟩

theorem kedLone : Statement .kedLone := ⟨rfl, by decide⟩

theorem kedLit (b : Byte) : Statement (.kedLit b) := ⟨rfl, fun h => nomatch h⟩

theorem frmLead (a : FrameAct) : Statement (.frmLead a) := ⟨rfl, fun h => nomatch h⟩

theorem frmLink (a : FrameAct) : Statement (.frmLink a) := ⟨rfl, fun h => nomatch h⟩

theorem frmTrail (a : FrameAct) : Statement (.frmTrail a) := ⟨rfl, fun h => nomatch h⟩

end Sys2Proof.Laws.EncodedLength
end

