-- ==== Sys2Proof/Laws/Units.lean ====
section
/-! SUPPORT. What the level S units do with an event, and what a step does with an interaction. -/

namespace Sys2Proof.Machine

theorem advance_cases (w fi : Nat) (bi : BitVec 2) :
    (bi.toNat + 1 = w ∧ advance w fi bi = (fi + 1, 0)) ∨ (bi.toNat + 1 ≠ w ∧ advance w fi bi = (fi, bi + 1)) := by
  unfold advance
  split
  · exact .inl ⟨by assumption, rfl⟩
  · exact .inr ⟨by assumption, rfl⟩

theorem U0.next_some {u : U0} {v : FieldValue} (h : u.record[u.fi]? = some v) :
    ∃ w, u.next = some (fieldByte v u.bi, w) ∧ (w.fi, w.bi) = advance v.type.width u.fi u.bi ∧ w.pay = u.pay ++ [fieldByte v u.bi] ∧
      w.active = u.active ∧ w.kind = u.kind ∧ w.record = u.record := by
  simp [U0.next, h]

theorem U0.next_none {u : U0} (h : u.record[u.fi]? = none) : u.next = none := by simp [U0.next, h]

theorem U1.byte_none {u : U1} (b : Byte) (h : u.sch[u.fi]? = none) : u.byte b = none := by simp [U1.byte, h]

theorem U1.byte_inside {u : U1} {T : FieldType} (b : Byte) (h : u.sch[u.fi]? = some T) (hw : u.bi.toNat + 1 ≠ T.width) :
    u.byte b = some { u with bi := u.bi + 1, sh := setShiftByte u.sh u.bi b } := by
  simp [U1.byte, advance, h, hw]

theorem U1.byte_completes {u : U1} {T : FieldType} (b : Byte) (h : u.sch[u.fi]? = some T) (hw : u.bi.toNat + 1 = T.width) :
    u.byte b = some { u with fi := u.fi + 1, bi := 0, sh := 0, xs := u.xs.set u.fi (fieldOfBits T (setShiftByte u.sh u.bi b)) } := by
  simp [U1.byte, advance, h, hw]

@[simp] theorem U2.byte_active (u : U2) (b : Byte) : (u.byte b).active = u.active := rfl

@[simp] theorem U4.emitted_eq (b : Byte) : U4.emitted b = escapeByte b := by
  unfold U4.emitted decodeWire8 escapeByte
  repeat' split
  all_goals first | rfl | (split at * <;> simp_all)

@[simp] theorem U7.byte_active (u : U7) (b : Byte) : (u.byte b).active = u.active := rfl

theorem byteUnit_u1 (b : Byte) (s : State) :
    byteUnit .u1 b s = if s.u1.active = true then byteU1 b s else .refused .outsideCall := rfl

theorem byteUnit_u2 (b : Byte) (s : State) :
    byteUnit .u2 b s = if s.u2.active = true then .next { s with u2 := s.u2.byte b } else .refused .outsideCall := rfl

theorem byteUnit_u3 (b : Byte) (s : State) :
    byteUnit .u3 b s = if s.u3.sum.active = true then .next { s with u3 := s.u3.byte b } else .refused .outsideCall := rfl

theorem byteUnit_u4 (b : Byte) (s : State) : byteUnit .u4 b s = .next { s with u4 := s.u4.byte b } := rfl

theorem byteUnit_u5 (b : Byte) (s : State) :
    byteUnit .u5 b s = if s.u5.active = true then .next { s with u5 := s.u5.byte b } else .refused .outsideCall := rfl

theorem byteUnit_u7 (b : Byte) (s : State) :
    byteUnit .u7 b s = if s.u7.active = true then .next { s with u7 := s.u7.byte b } else .refused .outsideCall := rfl

theorem finishUnit_u1 (s : State) : finishUnit .u1 s = if s.u1.active = true then finishU1 s else .refused .outsideCall := rfl

theorem finishUnit_u2 (s : State) : finishUnit .u2 s =
    if s.u2.active = true then .next { s with ck := s.u2.check, u2 := U2.idle } else .refused .outsideCall := rfl

theorem finishUnit_u3 (s : State) : finishUnit .u3 s =
    if s.u3.sum.active = true then .next { s with matched := some s.u3.check, u3 := U3.idle } else .refused .outsideCall := rfl

theorem finishUnit_u4 (s : State) : finishUnit .u4 s = .next { s with escr := s.u4.escr, u4 := U4.idle } := rfl

theorem finishUnit_u5 (s : State) : finishUnit .u5 s =
    if s.u5.active = true then .next { s with raw := s.u5.output, u5 := U5.idle } else .refused .outsideCall := rfl

theorem finishUnit_u7 (s : State) : finishUnit .u7 s =
    if s.u7.active = true then .next { s.deliver s.u7.kind s.u7.outcome with u7 := U7.idle } else .refused .outsideCall := rfl

/-- What an accessor answers: the converted integer in `reading` and `evaluated`, or a refusal that says the layout lacks the integer field. -/
theorem readInteger_cases (n : FieldName) (c : Config.Conversion) (s : State) :
    (∃ v z, s.telemetryField n = some v ∧ v.int? = some z ∧
      readInteger n c s = .next { s with reading := exactReading c z, evaluated := Config.accessorNumerics c z }) ∨
    (s.telemetryField n = none ∧ readInteger n c s = .refused .badIndex) ∨
    (∃ v, s.telemetryField n = some v ∧ v.int? = none ∧ readInteger n c s = .refused .badArity) := by
  cases h : s.telemetryField n with
  | none => exact .inr (.inl ⟨rfl, by simp [readInteger, h]⟩)
  | some v =>
    cases hz : v.int? with
    | none => exact .inr (.inr ⟨v, rfl, hz, by simp [readInteger, h, hz]⟩)
    | some z => exact .inl ⟨v, z, rfl, hz, by simp [readInteger, h, hz]⟩

/-- What a step of U0 in a call does: the unit advances, or the call ends with the payload, and the loan with it. -/
theorem State.advanceU0_cases (s : State) :
    (∃ b u, s.u0.next = some (b, u) ∧ s.advanceU0 = { s with u0 := u }) ∨
    (s.u0.next = none ∧ s.advanceU0 = { s with pay := s.u0.pay, u0 := U0.idle, loanU0 := false }) := by
  cases hn : s.u0.next with
  | none => exact .inr ⟨rfl, by simp [State.advanceU0, hn]⟩
  | some p => exact .inl ⟨p.1, p.2, rfl, by simp [State.advanceU0, hn]⟩

/-- What a step of U6 in a call does: the unit advances, or the call ends with the frame, and the loan with it. -/
theorem State.advanceU6_cases (s : State) :
    (s.u6.stage ≠ .done ∧ s.advanceU6 = { s with u6 := s.u6.next }) ∨
    (s.u6.stage = .done ∧ s.advanceU6 = { s with frame := s.u6.frame, u6 := U6.idle, loanU6 := false }) := by
  by_cases hd : s.u6.stage = .done
  · exact .inr ⟨hd, by simp [State.advanceU6, hd]⟩
  · exact .inl ⟨hd, by simp [State.advanceU6, hd]⟩

/-- U0 running on touches the payload, U0 and its loan alone. -/
theorem State.runU0_frame (s : State) : ∃ p u l, s.runU0 = { s with pay := p, u0 := u, loanU0 := l } := by
  unfold State.runU0
  split
  · rcases s.advanceU0_cases with ⟨_, u, _, h⟩ | ⟨_, h⟩
    · exact ⟨s.pay, u, s.loanU0, h⟩
    · exact ⟨_, _, _, h⟩
  · exact ⟨s.pay, s.u0, s.loanU0, rfl⟩

/-- U6 running on touches the frame, U6 and its loan alone. -/
theorem State.runU6_frame (s : State) : ∃ f u l, s.runU6 = { s with frame := f, u6 := u, loanU6 := l } := by
  unfold State.runU6
  split
  · rcases s.advanceU6_cases with ⟨_, h⟩ | ⟨_, h⟩
    · exact ⟨s.frame, s.u6.next, s.loanU6, h⟩
    · exact ⟨_, _, _, h⟩
  · exact ⟨s.frame, s.u6, s.loanU6, rfl⟩

/-- The units running on touch the payload, the frame, U0, U6 and their loans alone. -/
theorem State.runUnits_frame (s : State) :
    ∃ p f u v l m, s.runUnits = { s with pay := p, frame := f, u0 := u, u6 := v, loanU0 := l, loanU6 := m } := by
  obtain ⟨p, u, l, h0⟩ := s.runU0_frame
  obtain ⟨f, v, m, h6⟩ := State.runU6_frame { s with pay := p, u0 := u, loanU0 := l }
  exact ⟨p, f, u, v, l, m, by rw [State.runUnits, h0, h6]⟩

/-- Outside a call of U0 and U6 the units stand still. -/
theorem State.runUnits_idle {s : State} (h0 : s.u0.active = false) (h6 : s.u6.active = false) : s.runUnits = s := by
  simp [State.runUnits, State.runU0, State.runU6, h0, h6]

/-- What a step of U0 that the caller lets pass answers. -/
theorem tickU0_cases (s : State) :
    (s.u0.active = false ∧ tickU0 s = .refused .outsideCall) ∨ (s.u0.active = true ∧ tickU0 s = .next s.advanceU0) := by
  cases ha : s.u0.active with
  | false => exact .inl ⟨rfl, by simp [tickU0, ha]⟩
  | true => exact .inr ⟨rfl, by simp [tickU0, ha]⟩

/-- What a step of U6 that the caller lets pass answers. -/
theorem tickU6_cases (s : State) :
    (s.u6.active = false ∧ tickU6 s = .refused .outsideCall) ∨ (s.u6.active = true ∧ tickU6 s = .next s.advanceU6) := by
  cases ha : s.u6.active with
  | false => exact .inl ⟨rfl, by simp [tickU6, ha]⟩
  | true => exact .inr ⟨rfl, by simp [tickU6, ha]⟩

/-- What `REC.SET` answers: one register written, a refusal of the index, or a refusal of a Record on loan. -/
theorem execRecSet_cases (s : State) :
    ((s.recordOf s.kind)[s.idx]? = none ∧ execRecSet s = .refused .badIndex) ∨
    (∃ old, (s.recordOf s.kind)[s.idx]? = some old ∧ s.lent s.kind = true ∧ execRecSet s = .refused .recordLent) ∨
    (∃ old, (s.recordOf s.kind)[s.idx]? = some old ∧ s.lent s.kind = false ∧
      execRecSet s = .next (s.setRecord s.kind ((s.recordOf s.kind).set s.idx (s.vals.get old.type)))) := by
  cases h : (s.recordOf s.kind)[s.idx]? with
  | none => exact .inl ⟨rfl, by simp [execRecSet, h]⟩
  | some old =>
    cases hl : s.lent s.kind with
    | true => exact .inr (.inl ⟨old, rfl, rfl, by simp [execRecSet, h, hl]⟩)
    | false => exact .inr (.inr ⟨old, rfl, rfl, by simp [execRecSet, h, hl]⟩)

/-- The operand bytes of `UNPACK.T` are the payload's where it has them. -/
theorem State.fieldBytes_of_pay {s : State} {b0 b1 b2 b3 : Byte} {r : List Byte} (h : s.pay = b0 :: b1 :: b2 :: b3 :: r) :
    s.fieldBytes = { b0 := b0, b1 := b1, b2 := b2, b3 := b3 } := by
  simp [State.fieldBytes, h]

/-- Every binary32 datum is a multiple of 2^-149. -/
theorem binary32Value_scaled {w : Word} {q : Rat} (h : binary32Value w = some q) : ∃ n : Int, q * 2 ^ 149 = n := by
  have sign : ∀ b : Bool, ∃ n : Int, (if b = true then (-1 : Rat) else 1) = n := fun b => ⟨if b then -1 else 1, by cases b <;> simp⟩
  obtain ⟨n, hn⟩ := sign (w.getLsbD 31)
  simp only [binary32Value] at h
  split at h
  · cases h
  · split at h
    · cases h
      refine ⟨n * (w.extractLsb' 0 23).toNat, ?_⟩
      rw [hn, mul_assoc, zpow_neg, ← zpow_natCast (2 : Rat) 149]
      push_cast
      rw [inv_mul_cancel₀ (by positivity), mul_one]
    · next h0 =>
      cases h
      refine ⟨n * (2 ^ 23 + (w.extractLsb' 0 23).toNat) * 2 ^ ((w.extractLsb' 23 8).toNat - 1), ?_⟩
      rw [hn, mul_assoc, ← zpow_natCast (2 : Rat) 149, ← zpow_add₀ (by norm_num)]
      push_cast
      rw [← zpow_natCast (2 : Rat) (_ - 1)]
      congr 2
      omega

@[simp] theorem continueFetch_nil (f : Format) (p : List Interaction) : continueFetch f [] p = p := rfl

@[simp] theorem continueFetch_cons (f : Format) (b : Byte) (bs : List Byte) (p : List Interaction) :
    continueFetch f (b :: bs) p = .fetch f (b :: bs) :: p := rfl

theorem step_alone {s : State} (h : s.pending = []) : step s = .next s.runUnits := by simp [step, performNext, h]

theorem step_idle {s : State} (h : s.pending = []) (h0 : s.u0.active = false) (h6 : s.u6.active = false) : step s = .next s := by
  rw [step_alone h, State.runUnits_idle h0 h6]

theorem step_interact {s : State} {it : Interaction} {rest : List Interaction} (h : s.pending = it :: rest) :
    step s = interact it { s with pending := rest } := by
  simp [step, performNext, h]

theorem stepTimes_zero (s : State) : stepTimes 0 s = .next s := rfl

theorem stepTimes_next {k : Nat} {s t : State} (h : step s = .next t) : stepTimes (k + 1) s = stepTimes k t := by simp [stepTimes, h]

theorem stepTimes_refused {k : Nat} {s : State} {r : Refusal} (h : step s = .refused r) : stepTimes (k + 1) s = .refused r := by
  simp [stepTimes, h]

/-- `stepTimes` is the host's run of the core. -/
theorem stepTimes_eq_run (k : Nat) (s : State) : Host.Core.run Sys2Proof.core k s = stepTimes k s := by
  have general : ∀ (M : Host.Core) (g : Nat → M.State → Host.Outcome M.State M.Fault M.Refusal), (∀ s, g 0 s = .next s) →
      (∀ k s t, M.step s = .next t → g (k + 1) s = g k t) → (∀ k s r, M.step s = .fault r → g (k + 1) s = .fault r) →
      (∀ k s r, M.step s = .refused r → g (k + 1) s = .refused r) → ∀ k s, M.run k s = g k s := by
    intro M g h0 hn hf hr k
    induction k with
    | zero => intro s; rw [Host.Core.run, h0]
    | succ k ih =>
      intro s
      rw [Host.Core.run]
      cases h : M.step s with
      | next t => simp [ih, hn k s t h]
      | fault r => simp [hf k s r h]
      | refused r => simp [hr k s r h]
  exact general Sys2Proof.core stepTimes (fun _ => rfl) (fun _ _ _ h => stepTimes_next h) (fun _ _ r _ => nomatch r)
    (fun _ _ _ h => stepTimes_refused h) k s

end Sys2Proof.Machine
end

