-- ==== Sys2Proof/Tests/Slice0.lean ====
section
/-! SUPPORT. Tests: the well-formedness checks, a word for every constructor, the spec's own vectors (95_test_vectors.md, named by their ids), and a witness
for the hypotheses of every statement that has some. -/

namespace Sys2Proof.Machine.Tests

/-- A field of the next state, none after a refusal. -/
def after {α : Type} (r : Result) (f : State → α) : Option α :=
  match r with
  | .next t => some (f t)
  | .fault _ => none
  | .refused _ => none

/-- The refusal, none after a next state. -/
def stop (r : Result) : Option Refusal :=
  match r with
  | .next _ => none
  | .fault _ => none
  | .refused x => some x

/-- A caller working with a schema and a Record of its own. -/
def generic (x : Record) : State := { State.reset with kind := .generic, sch := schemaOfRecord x, genRec := x }

/-- The value ports after one value was handed over. -/
def withValue (v : FieldValue) : State := State.reset.setValue v

/-- A payload of four bytes. -/
def withBytes (b0 b1 b2 b3 : Byte) : State := { State.reset with pay := [b0, b1, b2, b3] }

/-- The Record of vector B14 in schema S2. -/
def s2 : State := generic [.byte 0xC0, .uint16 0xDBDC]

/-- The Record of vector B15 in schema S7. -/
def s7 : State :=
  generic [.bool 1, .byte 0xC0, .int16 0xFFFE, .uint16 0xDB00, .int32 0x80000000, .uint32 0xDEADBEEF, .float32 0x7FC00001]

/-- The Record of vector F4 in schema S2. -/
def s4 : State := generic [.byte 0x24, .uint16 0x003F]

/-- The frame of vector F4. -/
def frame4 : List Byte := [0xC0, 0x00, 0x24, 0x3F, 0x00, 0xDB, 0xDD, 0xDB, 0xDC, 0xC0]

/-- The fillers and the checksum of vector F5. -/
def fillers : List Byte :=
  [0x78, 0x56, 0x34, 0x12, 0x78, 0x56, 0x34, 0x12, 0x78, 0x56, 0x34, 0x12, 0x78, 0x56, 0x34, 0x12, 0x78, 0x56, 0x34, 0x12]

/-- The frame of vector F5, `CUTDOWN` with value 0. -/
def frame5 : List Byte := [0xC0, 0x00, 0x01, 0x03, 0x00, 0x00, 0x00, 0x00] ++ fillers ++ [0xA2, 0xF1, 0xC0]

/-- The Record of vector F5. -/
def record5 : Record :=
  [.byte 0x01, .byte 0x03, .uint32 0, .uint32 0x12345678, .uint32 0x12345678, .uint32 0x12345678, .uint32 0x12345678, .uint32 0x12345678]

/-- A machine that has received a candidate frame. -/
def received (k : PacketKind) (f : List Byte) : State := { State.reset with kind := k, frame := f }

/-- A Telemetry Record that is zero but for one field, in the reference layout. -/
def telemetryWith (i : Nat) (v : FieldValue) : State := { State.reset with tlmRec := State.reset.tlmRec.set i v }

/-! ### Well-formedness: an ill-formed term for each check -/

theorem test_keeLit_delim_ill_formed : (Instr.keeLit 0xC0).wellFormed = false := by decide

theorem test_keeLit_esc_ill_formed : (Instr.keeLit 0xDB).wellFormed = false := by decide

theorem test_kedLit_esc_ill_formed : (Instr.kedLit 0xDB).wellFormed = false := by decide

theorem test_literals_well_formed : (Instr.keeLit 0xDC).wellFormed = true ∧ (Instr.kedLit 0xC0).wellFormed = true := by decide

/-! ### A word for every constructor, from 30_encoding.md R47, R46, R43 -/

theorem test_decode_pack : decodeTableWord 6 0b000000 = some .packBool ∧ decodeTableWord 6 0b000001 = some .packByte ∧
    decodeTableWord 6 0b000010 = some .packI16 ∧ decodeTableWord 6 0b000011 = some .packU16 ∧ decodeTableWord 6 0b000100 = some .packI32 ∧
    decodeTableWord 6 0b000101 = some .packU32 ∧ decodeTableWord 6 0b000110 = some .packF32 := by decide

theorem test_decode_unpack : decodeTableWord 8 0b00001000 = some .unpackBool ∧ decodeTableWord 8 0b00001001 = some .unpackByte ∧
    decodeTableWord 8 0b00001010 = some .unpackI16 ∧ decodeTableWord 8 0b00001011 = some .unpackU16 ∧
    decodeTableWord 8 0b00001100 = some .unpackI32 ∧ decodeTableWord 8 0b00001101 = some .unpackU32 ∧
    decodeTableWord 8 0b00001110 = some .unpackF32 := by decide

theorem test_decode_records : decodeTableWord 8 0b00010000 = some .schNumbytes ∧ decodeTableWord 8 0b00010001 = some .schOffset ∧
    decodeTableWord 8 0b00010010 = some .recNew ∧ decodeTableWord 8 0b00010011 = some .recSet ∧ decodeTableWord 8 0b00010100 = some .recGet ∧
    decodeTableWord 8 0b00011000 = some .schEncode ∧ decodeTableWord 8 0b00011001 = some .schDecode := by decide

theorem test_decode_checksum_escape : decodeTableWord 8 0b00011010 = some .csumGen ∧ decodeTableWord 8 0b00011011 = some .csumVfy ∧
    decodeTableWord 8 0b00011100 = some .kissEsc ∧ decodeTableWord 8 0b00011101 = some .kissUnesc := by decide

theorem test_decode_framing : decodeTableWord 8 0b00011110 = some .tlmFmt ∧ decodeTableWord 8 0b00011111 = some .cmdParse ∧
    decodeTableWord 8 0b00100000 = some .frmEnc ∧ decodeTableWord 8 0b00100001 = some .frmDec ∧ decodeTableWord 8 0b00100010 = some .cmdFmt ∧
    decodeTableWord 8 0b00100011 = some .tlmParse := by decide

theorem test_decode_accessors : decodeTableWord 8 0b00101000 = some .accPressure ∧ decodeTableWord 8 0b00101001 = some .accAltitude ∧
    decodeTableWord 8 0b00101010 = some .accSpeed ∧ decodeTableWord 8 0b00101011 = some .accLat ∧ decodeTableWord 8 0b00101100 = some .accLon ∧
    decodeTableWord 8 0b00101101 = some .accResettime ∧ decodeTableWord 8 0b00101110 = some .accDataage ∧
    decodeTableWord 8 0b00101111 = some .accRelay ∧ decodeTableWord 8 0b00110000 = some .cmdLookup := by decide

theorem test_decode_wire8 : decode .wire8 [0b11000000] = .instr .keeDelim [] ∧ decode .wire8 [0b11011011] = .instr .keeEsc [] ∧
    decode .wire8 [0b00000101] = .instr (.keeLit 0x05) [] := by decide

theorem test_decode_wire16 : decode .wire16 [0b11011011, 0b11011100] = .instr .kedPairDelim [] ∧
    decode .wire16 [0b11011011, 0b11011101] = .instr .kedPairEsc [] ∧ decode .wire16 [0b11011011, 0b00000101] = .instr .kedLone [0x05] ∧
    decode .wire16 [0b11011011] = .instr .kedLone [] ∧ decode .wire16 [0b11000000, 0xDC] = .instr (.kedLit 0xC0) [0xDC] := by decide

theorem test_decode_framepos : decode (.framepos .lead .send) [0b11000000] = .instr (.frmLead .send) [] ∧
    decode (.framepos .link .send) [0b00000000] = .instr (.frmLink .send) [] ∧
    decode (.framepos .trail .send) [0b11000000] = .instr (.frmTrail .send) [] ∧
    decode (.framepos .trail .receive) [0b11110001] = .instr (.frmTrail (.receive 0xF1)) [] := by decide

theorem test_decode_rejects : decode .op6 [0x07] = .reject (.unassigned 0x07) ∧ decode .op6 [0x31] = .reject (.unassigned 0x31) ∧
    decode .op6 [0x40] = .reject (.unassigned 0x40) ∧ decode .op6 [] = .reject .empty ∧
    decode (.framepos .link .send) [0x01] = .reject (.notWritten 0x01) := by decide

theorem test_step_refuses_byte_not_written : stop (step { State.reset with pending := [.fetch (.framepos .link .send) [0x01]] }) = some .notWritten := by
  decide

theorem test_word_runs_after_reset : after (step (State.reset.withFetchWord 8 0x10)) State.count = some 26 ∧
    after (step (State.reset.withFetchWord 16 0xDBDC)) State.raw = some [0xC0] := by decide

/-! ### PACK and UNPACK, vectors A2 to A31 -/

theorem test_packBool : after (exec .packBool (withValue (.bool 1))) State.pay = some [0x01] := by decide

theorem test_packByte : after (exec .packByte (withValue (.byte 0xC0))) State.pay = some [0xC0] := by decide

theorem test_packI16 : after (exec .packI16 (withValue (.int16 0xFFFE))) State.pay = some [0xFE, 0xFF] := by decide

theorem test_packU16 : after (exec .packU16 (withValue (.uint16 0xDB00))) State.pay = some [0x00, 0xDB] := by decide

theorem test_packI32 : after (exec .packI32 (withValue (.int32 0x000186A0))) State.pay = some [0xA0, 0x86, 0x01, 0x00] := by decide

theorem test_packU32 : after (exec .packU32 (withValue (.uint32 0xDEADBEEF))) State.pay = some [0xEF, 0xBE, 0xAD, 0xDE] := by decide

theorem test_packF32 : after (exec .packF32 (withValue (.float32 0x7FC00001))) State.pay = some [0x01, 0x00, 0xC0, 0x7F] := by decide

theorem test_unpackBool : after (exec .unpackBool (withBytes 0x80 0 0 0)) (fun t => t.vals.bool) = some 1 ∧
    after (exec .unpackBool (withBytes 0x00 0xFF 0 0)) (fun t => t.vals.bool) = some 0 := by decide

theorem test_unpackByte : after (exec .unpackByte (withBytes 0xDB 0xFF 0 0)) (fun t => t.vals.byte) = some 0xDB := by decide

theorem test_unpackI16 : after (exec .unpackI16 (withBytes 0xFE 0xFF 0x11 0)) (fun t => t.vals.int16) = some 0xFFFE := by decide

theorem test_unpackU16 : after (exec .unpackU16 (withBytes 0xC0 0x00 0x11 0)) (fun t => t.vals.uint16) = some 0x00C0 := by decide

theorem test_unpackI32 : after (exec .unpackI32 (withBytes 0x9C 0xFF 0xFF 0xFF)) (fun t => t.vals.int32) = some 0xFFFFFF9C := by decide

theorem test_unpackU32 : after (exec .unpackU32 (withBytes 0x78 0x56 0x34 0x12)) (fun t => t.vals.uint32) = some 0x12345678 := by decide

theorem test_unpackF32 : after (exec .unpackF32 (withBytes 0x00 0x00 0xC0 0xFF)) (fun t => t.vals.float32) = some 0xFFC00000 := by decide

/-- A payload of one byte, the other lanes held by the caller. -/
def shortPayload : State := { State.reset with pay := [0x34], fbytes := { b0 := 0xFF, b1 := 0x12, b2 := 0, b3 := 0 } }

theorem test_unpack_short_payload : after (exec .unpackU16 shortPayload) (fun t => t.vals.uint16) = some 0x1234 := by decide

/-! ### Schema and Record operations, vectors B3 to B20 -/

theorem test_schNumbytes : after (exec .schNumbytes s7) State.count = some 18 ∧
    after (exec .schNumbytes { State.reset with kind := .telemetry }) State.count = some 121 := by decide

theorem test_schOffset : after (exec .schOffset { s7 with idx := 7 }) State.count = some 18 ∧
    after (exec .schOffset { State.reset with kind := .telemetry, idx := 35 }) State.count = some 90 := by decide

theorem test_recNew : after (exec .recNew s2) State.genRec = some [.byte 0, .uint16 0] ∧
    after (exec .recNew { State.reset with cmdRec := [] }) State.cmdRec = some State.reset.cmdRec := by decide

theorem test_recSet : after (exec .recSet { (s2.setValue (.uint16 0x1234)) with idx := 1 }) State.genRec = some [.byte 0xC0, .uint16 0x1234] := by decide

theorem test_recGet : after (exec .recGet { s2 with idx := 1 }) (fun t => t.vals.uint16) = some 0xDBDC ∧
    stop (exec .recGet { s2 with idx := 2 }) = some .badIndex := by decide

theorem test_schEncode : after (exec .schEncode s7) State.pay =
    some [0x01, 0xC0, 0xFE, 0xFF, 0x00, 0xDB, 0x00, 0x00, 0x00, 0x80, 0xEF, 0xBE, 0xAD, 0xDE, 0x01, 0x00, 0xC0, 0x7F] := by decide

theorem test_schDecode : after (exec .schDecode { s7 with
      pay := [0x02, 0x10, 0x01, 0x00, 0x02, 0x00, 0x03, 0x00, 0x00, 0x00, 0x04, 0x00, 0x00, 0x00, 0x00, 0x00, 0x80, 0x3F] }) State.genRec =
    some [.bool 1, .byte 0x10, .int16 1, .uint16 2, .int32 3, .uint32 4, .float32 0x3F800000] := by decide

/-! ### Checksum and escape codec, vectors K5, K4, E8, E11, E17 -/

theorem test_csumGen : after (exec .csumGen { State.reset with pay := [0x01, 0x02, 0x03] }) State.ck = some 0xFDFB ∧
    after (exec .csumGen { State.reset with pay := [0xFF, 0xFF, 0x01, 0x00] }) State.ck = some 0xFFFF := by decide

theorem test_csumVfy : after (exec .csumVfy { State.reset with pay := [0x03, 0x02, 0x01], rxck := 0xFDFB }) State.matched = some (some 1) ∧
    after (exec .csumVfy { State.reset with pay := [0x01, 0x02, 0x03], rxck := 0xFDFA }) State.matched = some (some 0) := by decide

theorem test_kissEsc : after (exec .kissEsc { State.reset with raw := [0xC0, 0xDB, 0xDC, 0xDD] }) State.escr =
    some [0xDB, 0xDC, 0xDB, 0xDD, 0xDC, 0xDD] := by decide

theorem test_kissUnesc : after (exec .kissUnesc { State.reset with escr := [0xDB, 0xDB, 0xDC] }) State.raw = some [0xDB, 0xC0] ∧
    after (exec .kissUnesc { State.reset with escr := [0xDB, 0xDC, 0xDB] }) State.raw = some [0xC0, 0xDB] := by decide

theorem test_kee : after (exec .keeDelim State.reset) State.escr = some [0xDB, 0xDC] ∧
    after (exec .keeEsc State.reset) State.escr = some [0xDB, 0xDD] ∧ after (exec (.keeLit 0x05) State.reset) State.escr = some [0x05] := by decide

theorem test_ked : after (exec .kedPairDelim State.reset) State.raw = some [0xC0] ∧ after (exec .kedPairEsc State.reset) State.raw = some [0xDB] ∧
    after (exec .kedLone State.reset) State.raw = some [0xDB] ∧ after (exec (.kedLit 0xC0) State.reset) State.raw = some [0xC0] := by decide

/-! ### Framing, vectors F4, F5, D1, D6, D14, D27 -/

theorem test_frmEnc : after (exec .frmEnc s4) State.frame = some frame4 := by decide

theorem test_frmDec : after (exec .frmDec { s4 with genRec := [], frame := frame4 }) State.genRec = some [.byte 0x24, .uint16 0x003F] ∧
    after (exec .frmDec { s4 with frame := [0xC0, 0x00, 0xDB, 0x05, 0x00, 0x24, 0xFA, 0xC0] }) State.genRec =
      some [.byte 0xDB, .uint16 0x0005] := by decide

theorem test_cmdFmt : after (exec .cmdFmt { State.reset with cmdRec := record5 }) State.frame = some frame5 := by decide

theorem test_cmdParse : after (exec .cmdParse (received .generic frame5)) State.cmdRec = some record5 ∧
    after (exec .cmdParse (received .generic frame5.dropLast)) State.status = some (some .badFraming) := by decide

theorem test_frame_positions : after (exec (.frmLead .send) State.reset) State.frame = some [0xC0] ∧
    after (exec (.frmLink .send) State.reset) State.frame = some [0x00] ∧ after (exec (.frmTrail .send) State.reset) State.frame = some [0xC0] ∧
    after (exec (.frmLead (.receive 0xC1)) (received .command [0x05])) State.frame = some [0xC1] ∧
    after (exec (.frmTrail (.receive 0xF1)) (received .command [0x05])) (fun t => (t.frame, t.status)) = some ([0x05, 0xF1], none) := by decide

theorem test_tlmFmt : after (exec .tlmFmt (telemetryWith 35 (.int32 0x000186A0))) (fun t => (t.frame.length, t.frame.drop 92 |>.take 4)) =
    some (126, [0xA0, 0x86, 0x01, 0x00]) := by decide +kernel

theorem test_tlmParse : after (exec .tlmParse (received .command [0xC0, 0x00, 0xC0])) State.status = some (some .lengthMismatch) := by decide

/-! ### Accessors and the command table, vectors T1 to T10 -/

theorem test_accPressure : after (exec .accPressure (telemetryWith 5 (.int32 1000))) State.reading = some (145038 / 1000000) := by decide +kernel

theorem test_accAltitude : after (exec .accAltitude { telemetryWith 47 (.int32 0xFFFFFF9C) with fix := .fix2 }) State.reading =
    some (-328084 / 100000) := by decide +kernel

theorem test_accSpeed : after (exec .accSpeed (telemetryWith 30 (.int32 1000))) State.reading = some (621371 / 1000000) := by decide +kernel

theorem test_accLat : after (exec .accLat (telemetryWith 33 (.int32 0x80000000))) State.reading = some (-2147483648 / 10000000) := by decide +kernel

theorem test_accLon : after (exec .accLon (telemetryWith 34 (.int32 0xB9D6E120))) State.reading = some (-11771 / 100) := by decide +kernel

theorem test_accResettime : after (exec .accResettime (telemetryWith 19 (.uint32 12345))) State.reading = some (12345 / 1000) := by decide +kernel

theorem test_accDataage : after (exec .accDataage (telemetryWith 20 (.uint32 500))) State.reading = some (1 / 2) := by decide +kernel

theorem test_accRelay : after (exec .accRelay { telemetryWith 21 (.byte 0x05) with relay := 2 }) (fun t => t.vals.bool) = some 1 ∧
    stop (exec .accRelay { State.reset with relay := 4 }) = some .badRelay := by decide

theorem test_cmdLookup : after (exec .cmdLookup { State.reset with name := .cutdown }) (fun t => t.vals.byte) = some 3 ∧
    stop (exec .cmdLookup { State.reset with name := .other "SELF_DESTRUCT" }) = some .unknownCommand := by decide

/-! ### Level S, vectors L1, L2, L4: one event each -/

theorem test_u5_pending_escape : (U5.byte { active := true, escPend := true, raw := [] } 0xDB).raw = [0xDB] ∧
    (U5.byte { active := true, escPend := true, raw := [] } 0xDB).escPend = true := by decide

theorem test_u2_high_byte : (U2.byte { active := true, acc := 1, phase := true } 0x02).acc = 0x0201 := by decide

theorem test_u1_shift : (U1.byte { U1.start .generic [.byte, .uint16] with fi := 1 } 0x3F).map (fun u => (u.sh, u.fi, u.bi)) =
    some (0x3F, 1, 1) := by decide

theorem test_u0_cursor : (U0.next { U0.start .generic s4.genRec with fi := 1, bi := 1 }).map (fun p => (p.1, p.2.fi, p.2.bi)) =
    some (0x00, 2, 0) := by decide

/-! ### Witnesses: for each statement with hypotheses, a state and operands that meet them, one per clause, at the ends of the ranges -/

/-- A machine with `REC.SET` waiting on the second field while U0 has the Record on loan. -/
def lentState : State := { s2 with idx := 1, u0 := U0.start .generic s2.genRec, loanU0 := true }

/-- 70_reset_and_hazards.md R131: the Record on loan is refused, a fresh one of the same contents is not. -/
theorem test_recSet_on_loan : stop (exec .recSet lentState) = some .recordLent ∧
    after (exec .recSet (lentState.freshRecord .generic s2.genRec)) State.genRec = some [.byte 0xC0, .uint16 0] := by
  decide

/-- A call of U0 that has borrowed the Command Record. -/
def encoding : State := { State.reset with u0 := U0.start .command State.reset.cmdRec, loanU0 := true }

/-- 70_reset_and_hazards.md R136: with nothing lined up the call goes on by itself, and from its last byte to its end. -/
theorem test_call_runs_on_alone : after (step encoding) (fun t => (t.u0.pay, t.u0.active)) = some ([0x01], true) ∧
    after (step { encoding with u0 := { encoding.u0 with fi := 8, pay := packRecord encoding.cmdRec } }) (fun t => (t.pay, t.u0, t.loanU0)) =
      some (packRecord encoding.cmdRec, U0.idle, false) := by
  decide

/-- A call of U6 that has borrowed the Telemetry Record. -/
def formatting : State := { State.reset with u6 := U6.start .telemetry State.reset.tlmRec, loanU6 := true }

theorem test_formatter_runs_on_alone : after (step formatting) (fun t => (t.u6.frame, t.u6.stage)) = some ([0xC0], .link) := by decide

theorem test_witness_SerialEncoderRefinesSchEncode : encoding.pending = [] ∧ encoding.u0.active = true ∧ encoding.u0.consistent = true := by decide

theorem test_witness_SerialFormatterRefinesFrmEnc : formatting.pending = [] ∧ formatting.u6.active = true ∧ formatting.u6.consistent = true := by
  decide +kernel

/-- A Telemetry layout of one field. -/
def oneField (n : FieldName) (v : FieldValue) : State := { State.reset with tlmLayout := [(n, v.type)], tlmRec := [v] }

/-- A machine about to decode vector D14, whose checksum is wrong. -/
def wrongChecksum : State := received .command ([0xC0, 0x00, 0x01, 0x03, 0x00, 0x00, 0x00, 0x00] ++ fillers ++ [0xA3, 0xF1, 0xC0])

theorem test_witness_UnpackIntegersAssembleLittleEndian : (withBytes 1 2 3 4).pay = 1 :: [2, 3, 4] ∧ (withBytes 1 2 3 4).pay = 1 :: 2 :: [3, 4] ∧
    (withBytes 0xFF 0 0 0x80).pay = 0xFF :: 0 :: 0 :: 0x80 :: [] := by
  decide

theorem test_witness_BoolAndFloatFieldsFollowDecisions : (withBytes 0x01 0 0xC0 0x7F).pay = 0x01 :: 0 :: 0xC0 :: 0x7F :: [] ∧
    (withBytes 0 1 2 3).pay = 0 :: [1, 2, 3] := by
  decide

theorem test_witness_SchemaQueriesSumWidths : s7.idx ≤ (s7.schemaOf s7.kind).length ∧
    (State.schemaOf { s7 with idx := 7 } .generic).length = 7 ∧ (State.schemaOf { s7 with idx := 8 } .generic).length < 8 := by decide

theorem test_witness_RecNewGivesInitialValues :
    State.reset.schemaOf State.reset.kind = [.byte, .byte, .uint32, .uint32, .uint32, .uint32, .uint32, .uint32] ∧
    s2.schemaOf s2.kind ≠ [.byte, .byte, .uint32, .uint32, .uint32, .uint32, .uint32, .uint32] ∧ State.reset.configAdmissible = true := by
  decide +kernel

theorem test_witness_RecGetReturnsRegister : (s2.recordOf s2.kind)[s2.idx]? = some (.byte 0xC0) ∧
    (State.recordOf { s2 with idx := 1 } .generic)[1]? = some (.uint16 0xDBDC) ∧ (State.recordOf { s2 with idx := 2 } .generic).length ≤ 2 := by
  decide

theorem test_witness_RecSetWritesOneRegister : (lentState.recordOf lentState.kind)[lentState.idx]? = some (.uint16 0xDBDC) ∧
    lentState.lent lentState.kind = true ∧ s2.lent s2.kind = false ∧ (s2.recordOf s2.kind)[s2.idx]? = some (.byte 0xC0) ∧
    (State.recordOf { s2 with idx := 2 } .generic).length ≤ 2 ∧ PacketKind.telemetry ≠ .command ∧ encoding.lent .command = true ∧
    (encoding.freshRecord .telemetry []).lent .command = true := by
  decide

theorem test_witness_SchEncodePacksFieldsDensely : (s2.recordOf s2.kind)[1]? = some (.uint16 0xDBDC) := by decide

theorem test_witness_SchDecodeUnpacksFieldsInOrder :
    (State.pay { s2 with pay := [1, 2, 3] }).length = numBytes (State.schemaOf { s2 with pay := [1, 2, 3] } .generic) ∧
    (s2.schemaOf s2.kind)[1]? = some .uint16 ∧ s2.pay.length ≠ numBytes (s2.schemaOf s2.kind) := by
  decide

theorem test_witness_KissUnescResolvesPairs : ((0xDB : Byte) = 0xDB → [(0x05 : Byte)].head? ≠ some 0xDC ∧ [(0x05 : Byte)].head? ≠ some 0xDD) := by
  decide

theorem test_witness_WireRowsEmitTheirBytes : decoderKind .cmdParse (received .command [0x05, 0xC1]) = some .command ∧ (0xC1 : Byte) ≠ 0xC0 ∧
    (received .command [0x05, 0xC1]).frame = [0x05] ++ [0xC1] ∧ (received .command [0xC1, 0x05]).frame = 0xC1 :: [0x05] := by
  decide

theorem test_witness_DecodesFollowTheSixSteps : decoderKind .cmdParse wrongChecksum = some .command ∧
    decoderKind .frmDec s2 = some .generic ∧ decoderKind .tlmParse s2 = some .telemetry ∧
    ¬ framingGood (received .command [0xC0, 0xC0]).frame ∧ framingGood (received .command [0xC0, 0xC0, 0xC0]).frame ∧
    (regionOf [0xC0, 0xC0, 0xC0]).length ≠ numBytes (wrongChecksum.schemaOf .command) + 2 ∧
    regionOf wrongChecksum.frame = packRecord record5 ++ [0xA3, 0xF1] ∧
    (packRecord record5).length = numBytes (wrongChecksum.schemaOf .command) ∧ ~~~(wordSum (packRecord record5)) ≠ 0xF1A3 ∧
    regionOf frame5 = packRecord record5 ++ [0xA2, 0xF1] ∧ ~~~(wordSum (packRecord record5)) = 0xF1A2 := by
  decide

theorem test_witness_framing_of_short_and_shortest : framingFails [0xC0, 0xC0] ∧ ¬ framingFails [0xC0, 0xC0, 0xC0] ∧ ¬ framingFails frame5 := by
  unfold framingFails; decide

theorem test_witness_each_decode_error : after (exec .cmdParse (received .command [0xC0, 0xC0])) State.status = some (some .badFraming) ∧
    after (exec .cmdParse (received .command [0xC0, 0xC0, 0xC0])) State.status = some (some .lengthMismatch) ∧
    after (exec .cmdParse wrongChecksum) State.status = some (some .checksumMismatch) := by
  decide

theorem test_witness_AccessorsConvertRawIntegers : State.reset.telemetryField .pressureRaw = some (.int32 0) ∧
    (telemetryWith 35 (.int32 0x80000000)).telemetryField (.gpsAltitudeRaw .fix1) = some (.int32 0x80000000) ∧
    State.reset.telemetryField (.gpsSpeedRaw .fix1) = some (.int32 0) ∧ State.reset.telemetryField (.gpsLatitudeRaw .fix1) = some (.int32 0) ∧
    (telemetryWith 34 (.int32 0x7FFFFFFF)).telemetryField (.gpsLongitudeRaw .fix1) = some (.int32 0x7FFFFFFF) ∧
    (telemetryWith 19 (.uint32 0xFFFFFFFF)).telemetryField .resetTimeRaw = some (.uint32 0xFFFFFFFF) ∧
    State.reset.telemetryField .dataAgeRaw = some (.uint32 0) ∧ (FieldValue.uint32 0xFFFFFFFF).int? = some 4294967295 := by
  decide

theorem test_witness_AccessorsCompleteOnTelemetryRecords : State.reset.inv = true ∧ State.relay { State.reset with relay := 3 } ≤ 3 := by
  decide +kernel

theorem test_witness_NumericCodesAreAsListed : Status.ok.code = 0b00 ∧ Status.checksumMismatch.code = 0b11 ∧
    fieldTypeOfTag 0b000 = some .bool ∧ FieldType.float32.tag = 0b110 := by
  decide

theorem test_witness_RelayIsBitOfMask : (telemetryWith 21 (.byte 0x08)).telemetryField .relayStates = some (.byte 0x08) ∧
    (oneField .relayStates (.uint16 0x0801)).telemetryField .relayStates = some (.uint16 0x0801) ∧
    State.relay { State.reset with relay := 3 } ≤ 3 ∧ 3 < State.relay { State.reset with relay := 4 } := by
  decide

theorem test_witness_CmdLookupReadsTheTable : commandTableInjective State.reset.commandTable = true ∧
    (State.reset.name, (0 : Byte)) ∈ State.reset.commandTable ∧ (∀ e ∈ State.reset.commandTable, e.1 ≠ .other "SELF_DESTRUCT") := by
  decide

theorem test_witness_UnassignedOperationsRefused : State.pending { State.reset with pending := [.fetch .op6 [0x31]] } = [.fetch .op6 [0x31]] ∧
    stop (step { State.reset with pending := [.fetch .op6 [0x31]] }) = some .unassigned ∧
    decode .op6 [0x30, 0x07] = .instr .cmdLookup [0x07] := by
  decide

theorem test_witness_StepRunsDecodedInstruction : decode .op6 [0x1A] = .instr .csumGen [] ∧ decode .op6 [0x1A, 0x1B] = .instr .csumGen [0x1B] ∧
    Instr.csumGen.wellFormed = true ∧
    after (step { State.reset with pending := [.fetch .op6 [0x1A, 0x1B]] }) State.pending = some [.fetch .op6 [0x1B]] := by
  decide

theorem test_witness_DecodeOfEncodeIsInstruction : (Instr.keeLit 0x00).wellFormed = true ∧ Instr.kedLone.wellFormed = true ∧
    [(0xDE : Byte)].head? ≠ some 0xDC ∧ [(0xDE : Byte)].head? ≠ some 0xDD := by
  decide

theorem test_witness_EncodeOfDecodeIsWord : decode .wire16 [0xDB, 0xDE] = .instr .kedLone [0xDE] := by decide

theorem test_witness_StepKeepsInvariant : State.inv { State.reset with pending := [.startRun .u6] } = true ∧
    after (step { State.reset with pending := [.startRun .u6] }) (fun t => (t.u6.active, t.u6.kind, t.loanU6)) = some (true, .telemetry, true) ∧
    State.inv { encoding with pending := [.tick .u0] } = true ∧
    after (step { encoding with pending := [.tick .u0] }) (fun t => (t.u0.pay, t.loanU0)) = some ([0x01], true) := by
  decide +kernel

theorem test_witness_ConfigurationNeverChanges : after (step { State.reset with pending := [.handSchema [6]] }) State.sch = some [.float32] ∧
    after (exec .recNew State.reset) State.sch = some [] := by
  decide

theorem test_witness_OperationsLeaveOperandsAndUnits : after (exec .frmEnc s4) State.idx = some 0 := by decide

theorem test_witness_RecordsWrittenOnlyByNamedOperations : after (exec .recNew s2) State.genRec ≠ some s2.genRec ∧
    after (exec .cmdParse (received .generic frame5)) State.cmdRec ≠ some State.reset.cmdRec := by
  decide

theorem test_witness_FlagsWrittenOnlyByNamedOperations : after (exec .tlmParse State.reset) State.status ≠ some State.reset.status ∧
    after (exec .csumVfy State.reset) State.matched ≠ some State.reset.matched := by
  decide

theorem test_witness_BuffersWrittenOnlyByNamedOperations : after (exec .schEncode s2) State.pay ≠ some s2.pay ∧
    after (exec (.kedLit 0) State.reset) State.raw ≠ some State.reset.raw ∧ after (exec .keeDelim State.reset) State.escr ≠ some State.reset.escr ∧
    after (exec .cmdFmt State.reset) State.frame ≠ some State.reset.frame := by
  decide

theorem test_witness_DecodeDependsOnOperandsAlone : decoderKind .cmdParse (received .generic frame5) = some .command ∧
    decoderKind .cmdParse (received .telemetry frame5) = some .command ∧ (received .generic frame5).frame = (received .telemetry frame5).frame ∧
    (received .generic frame5).schemaOf .command = (received .telemetry frame5).schemaOf .command := by
  decide

theorem test_witness_FieldRoundTrips : [(0x02 : Byte)].length = FieldType.bool.width ∧ [(0xFF : Byte), 0x80].length = FieldType.int16.width := by decide

theorem test_witness_PayloadRoundTrips : schemaOfRecord (s7.recordOf s7.kind) = s7.schemaOf s7.kind ∧
    (State.pay { s2 with pay := [0xFF, 0xFF, 0xFF] }).length = numBytes (State.schemaOf { s2 with pay := [0xFF, 0xFF, 0xFF] } .generic) := by
  decide

theorem test_witness_UnescapeInvertsEscape : after (exec .kissEsc { State.reset with raw := [0xDB] }) State.escr =
    after (exec .kissEsc { s2 with raw := [0xDB] }) State.escr := by
  decide

theorem test_witness_EscapedRegionsAreExactlyTheImage : after (exec .kissEsc { State.reset with raw := [0xC0, 0xDB] }) State.escr =
      some [0xDB, 0xDC, 0xDB, 0xDD] ∧ properlyEscaped [0xDB, 0xDC, 0xDD] = true ∧ properlyEscaped [0xDB] = false := by
  decide

theorem test_witness_ChecksumDetectsEveryByteChange : (State.pay { State.reset with pay := [1, 2, 3] })[2]? = some 3 ∧ (0x00 : Byte) ≠ 3 := by decide

theorem test_witness_ChecksumMissesCompensatingChanges : ([] : List Byte).length % 2 = 0 ∧ [(1 : Byte), 2].length % 2 = 0 ∧
    (0x00 : Byte).toNat + (0xFF : Byte).toNat < 256 ∧ (0xFF : Byte).toNat ≤ (0xFF : Byte).toNat := by
  decide

theorem test_witness_FrameRoundTrip : (Instr.cmdFmt, Instr.cmdParse, PacketKind.command) ∈
      [(Instr.frmEnc, Instr.frmDec, s7.kind), (.cmdFmt, .cmdParse, .command), (.tlmFmt, .tlmParse, .telemetry)] ∧
    (Instr.frmEnc, Instr.frmDec, s7.kind) ∈
      [(Instr.frmEnc, Instr.frmDec, s7.kind), (.cmdFmt, .cmdParse, .command), (.tlmFmt, .tlmParse, .telemetry)] ∧
    schemaOfRecord (s7.recordOf s7.kind) = s7.schemaOf s7.kind ∧ schemaOfRecord (s7.recordOf .command) = s7.schemaOf .command ∧
    schemaOfRecord (s7.recordOf .telemetry) = s7.schemaOf .telemetry := by
  decide

theorem test_witness_FramesAreDelimitedBoundedInjective : schemaOfRecord (s4.recordOf s4.kind) = schemaOfRecord (s2.recordOf s2.kind) ∧
    after (exec .frmEnc s4) State.frame = after (exec .frmEnc { s4 with pay := [1] }) State.frame := by
  decide

theorem test_witness_SingleBitDamageIsDetected : schemaOfRecord (s4.recordOf s4.kind) = s4.schemaOf s4.kind ∧
    (frameEncode (s4.recordOf s4.kind)).length = 10 ∧ 9 < 10 ∧ 7 < 8 := by
  decide

theorem test_witness_SerialDecoderRefinesSchDecode : after (exec .schDecode { s2 with pay := [1, 2, 3] }) State.genRec = some [.byte 1, .uint16 0x0302] ∧
    stop (exec .schDecode s2) = some .badLength := by
  decide

theorem test_witness_UnitsDoNotInteract : ByteUnit.u4 ≠ ByteUnit.u2 ∧
    after (stepTimes 2 { State.reset with u2 := U2.start, pending := [.byte .u4 0xC0, .byte .u2 0x01] }) (fun t => (t.u4.escr, t.u2.acc)) =
      some ([0xDB, 0xDC], 0x0001) := by
  decide

theorem test_witness_NumbersEnterOnlyInDomain : ((-1 : Int) < 0 ∨ 255 < (-1 : Int)) ∧ ((256 : Int) < 0 ∨ 255 < (256 : Int)) ∧
    ((32768 : Int) < -32768 ∨ 32767 < (32768 : Int)) ∧ ((-32769 : Int) < -32768 ∨ 32767 < (-32769 : Int)) ∧
    ((65536 : Int) < 0 ∨ 65535 < (65536 : Int)) ∧ ((2147483648 : Int) < -2147483648 ∨ 2147483647 < (2147483648 : Int)) ∧
    ((4294967296 : Int) < 0 ∨ 4294967295 < (4294967296 : Int)) ∧
    after (interact (.handNumber .byte (.rational 255)) State.reset) (fun t => t.vals.byte) = some 255 ∧
    stop (interact (.handNumber .byte (.rational 256)) State.reset) = some .outOfDomain := by
  decide +kernel

theorem test_witness_no_register_stands_for_an_integer_outside : ∀ v : FieldValue, v.type = .byte → ¬ v.standsFor (.rational 256) := by
  rintro v h (hv | ⟨w, q, rfl, -, -⟩)
  · cases v with
    | byte b =>
      have := b.isLt
      simp only [valNumber, Number.rational.injEq] at hv
      have : b.toNat = 256 := by exact_mod_cast hv
      omega
    | _ => cases h
  · cases h

theorem test_witness_no_register_stands_for_a_truth_value : ∀ v : FieldValue, v.type = .float32 → ¬ v.standsFor (.truth true) := by
  rintro v h (hv | ⟨w, q, rfl, hz, -⟩)
  · cases v <;> first | (cases h; done) | simp [valNumber] at hv
  · cases hz

/-- 11.38 is the example of 40_field_types.md R55. -/
theorem test_witness_no_register_stands_for_a_real_between_data : ∀ v : FieldValue, v.type = .float32 → ¬ v.standsFor (.rational (1138 / 100)) := by
  rintro v h (hv | ⟨w, q, rfl, hz, hw⟩)
  · cases v <;> first | (cases h; done) | simp [valNumber] at hv
  · cases hz
    obtain ⟨n, hn⟩ := binary32Value_scaled hw
    have : (569 : Int) * 2 ^ 149 = 50 * n := by
      have : (569 : Rat) * 2 ^ 149 = 50 * n := by rw [← hn]; norm_num
      exact_mod_cast this
    omega

theorem test_witness_a_register_stands_for_a_rational : (FieldValue.float32 0x3FC00000).standsFor (.rational (3 / 2)) :=
  .inr ⟨0x3FC00000, 3 / 2, rfl, rfl, by decide +kernel⟩

theorem test_float32_domain : stop (interact (.handNumber .float32 (.rational (1138 / 100))) State.reset) = some .outOfDomain ∧
    after (interact (.handNumber .float32 (.rational (3 / 2))) State.reset) (fun t => t.vals.float32) = some 0x3FC00000 ∧
    stop (interact (.handNumber .int16 (.rational (1 / 3))) State.reset) = some .outOfDomain ∧
    stop (interact (.handNumber .byte (.truth true)) State.reset) = some .outOfDomain := by
  decide +kernel

theorem test_witness_UnpackCompletesOnShortPayloads : (Instr.unpackU16, FieldType.uint16) ∈
    [(Instr.unpackBool, FieldType.bool), (.unpackByte, .byte), (.unpackI16, .int16), (.unpackU16, .uint16), (.unpackI32, .int32),
      (.unpackU32, .uint32), (.unpackF32, .float32)] ∧ shortPayload.pay.length < FieldType.uint16.width := by
  decide

theorem test_witness_HandOversAreChecked : schemaOfRecord [.byte 1, .uint16 2] = s2.schemaOf s2.kind ∧
    schemaOfRecord [.byte 1] ≠ s2.schemaOf s2.kind ∧ (7 : BitVec 3) ∈ [(6 : BitVec 3), 7] ∧
    ((State.reset.layoutOf State.reset.kind).map Prod.fst).idxOf? (.filler 4) = some 7 ∧
    FieldName.humidity ∉ (State.reset.layoutOf State.reset.kind).map Prod.fst := by
  decide

end Sys2Proof.Machine.Tests
end

section
/-! SUPPORT. `PACK.T` and `UNPACK.T` stated once for all seven types: their operation numbers, their meaning, and the bytes `UNPACK.T` assembles
(30_encoding.md R47, R48; 40_field_types.md R56 to R69). -/

namespace Sys2Proof.Machine

/-- A byte is the number of an operation when the table of 30_encoding.md R47 gives it that meaning. -/
theorem isOperation_iff {op : Byte} {i : Instr} : isOperation op i ↔ decodeOp6 op = some i := by
  cases h : decodeOp6 op <;> simp [isOperation, decode, h]

/-- `PACK.T`. -/
def FieldType.packInstr : FieldType → Instr
  | .bool => .packBool
  | .byte => .packByte
  | .int16 => .packI16
  | .uint16 => .packU16
  | .int32 => .packI32
  | .uint32 => .packU32
  | .float32 => .packF32

/-- `UNPACK.T`. -/
def FieldType.unpackInstr : FieldType → Instr
  | .bool => .unpackBool
  | .byte => .unpackByte
  | .int16 => .unpackI16
  | .uint16 => .unpackU16
  | .int32 => .unpackI32
  | .uint32 => .unpackU32
  | .float32 => .unpackF32

/-- The number of `PACK.T` is the tag of `T`. -/
theorem isOperation_packInstr (T : FieldType) : isOperation (T.tag.setWidth 8) T.packInstr := by
  rw [isOperation_iff]; cases T <;> rfl

/-- The number of `UNPACK.T` is the tag of `T` with bit 3 set. -/
theorem isOperation_unpackInstr (T : FieldType) : isOperation (0x08 ||| T.tag.setWidth 8) T.unpackInstr := by
  rw [isOperation_iff]; cases T <;> rfl

theorem exec_packInstr (T : FieldType) (s : State) : exec T.packInstr s = .next { s with pay := pack (s.vals.get T) } := by
  cases T <;> rfl

theorem exec_unpackInstr (T : FieldType) (s : State) : exec T.unpackInstr s = .next (s.setValue (fieldOfBits T s.fieldBytes.bits)) := by
  cases T <;> rfl

theorem exec_unpackInstr_of_value {T : FieldType} {s : State} {v : FieldValue} (h : fieldOfBits T s.fieldBytes.bits = v) :
    exec T.unpackInstr s = .next (s.setValue v) := by
  rw [exec_unpackInstr, h]

/-- The low bits of the assembled bytes are those of the bytes after the first, in front of the first. -/
theorem assemble_cons_low_append {n : Nat} (hn : n ≤ 24) (b : Byte) (bs : List Byte) :
    (assemble (b :: bs)).extractLsb' 0 (n + 8) = (assemble bs).extractLsb' 0 n ++ b := by
  ext i hi
  have inside : i < 32 := by omega
  rw [BitVec.getElem_extractLsb', Nat.zero_add, assemble_cons_getLsbD, BitVec.getElem_append]
  by_cases low : i < 8
  · simp [low, BitVec.getLsbD_eq_getElem]
  · simp [low, inside]

theorem assemble_pair_low (b0 b1 : Byte) (bs : List Byte) : (assemble (b0 :: b1 :: bs)).extractLsb' 0 16 = b1 ++ b0 := by
  rw [assemble_cons_low_append (n := 8) (by decide), assemble_cons_low]

theorem assemble_four (b0 b1 b2 b3 : Byte) : assemble [b0, b1, b2, b3] = b3 ++ b2 ++ b1 ++ b0 :=
  calc assemble [b0, b1, b2, b3] = (assemble [b0, b1, b2, b3]).extractLsb' 0 (24 + 8) := BitVec.extractLsb'_eq_self.symm
    _ = (assemble [b2, b3]).extractLsb' 0 16 ++ b1 ++ b0 := by
      rw [assemble_cons_low_append (by decide), assemble_cons_low_append (n := 16) (by decide)]
    _ = b3 ++ b2 ++ b1 ++ b0 := by rw [assemble_pair_low]

/-- `UNPACK.T` of one byte reads the first byte of the payload. -/
theorem fieldBytes_bits_low8 {s : State} {b0 : Byte} {r : List Byte} (h : s.pay = b0 :: r) : s.fieldBytes.bits.extractLsb' 0 8 = b0 := by
  simp [FieldBytes.bits, State.fieldBytes, h, assemble_cons_low]

/-- `UNPACK.T` of two bytes reads the first two bytes of the payload. -/
theorem fieldBytes_bits_low16 {s : State} {b0 b1 : Byte} {r : List Byte} (h : s.pay = b0 :: b1 :: r) :
    s.fieldBytes.bits.extractLsb' 0 16 = b1 ++ b0 := by
  simp [FieldBytes.bits, State.fieldBytes, h, assemble_pair_low]

/-- `UNPACK.T` of four bytes reads the first four bytes of the payload. -/
theorem fieldBytes_bits {s : State} {b0 b1 b2 b3 : Byte} {r : List Byte} (h : s.pay = b0 :: b1 :: b2 :: b3 :: r) :
    s.fieldBytes.bits = b3 ++ b2 ++ b1 ++ b0 := by
  simp [FieldBytes.bits, State.fieldBytes, h, assemble_four]

end Sys2Proof.Machine
end

section
/-! SUPPORT. The schema queries: widths add up, and the three outcomes of `SCH.NUMBYTES` and `SCH.OFFSET` (41_packet_schema.md R71, R72). -/

namespace Sys2Proof.Machine

theorem numBytes_eq_sum (sch : Schema) : numBytes sch = (sch.map FieldType.width).sum := by
  induction sch with
  | nil => rfl
  | cons T sch ih => simp [numBytes, ih]

theorem offset_eq_sum (sch : Schema) (i : Nat) : offset sch i = ((sch.take i).map FieldType.width).sum := numBytes_eq_sum _

theorem exec_schNumbytes (s : State) : exec .schNumbytes s = .next { s with count := numBytes (s.schemaOf s.kind) } := rfl

theorem exec_schOffset_of_le {s : State} (h : s.idx ≤ (s.schemaOf s.kind).length) :
    exec .schOffset s = .next { s with count := offset (s.schemaOf s.kind) s.idx } := if_pos h

theorem exec_schOffset_of_lt {s : State} (h : (s.schemaOf s.kind).length < s.idx) : exec .schOffset s = .refused .badIndex :=
  if_neg (Nat.not_le.2 h)

end Sys2Proof.Machine
end

section
/-! The statements about the field types and the schema queries. -/

namespace Sys2Proof.Machine

/-- Settles O1: the one meaning of `PACK.T`, at each type. -/
theorem packIntegersEmitLittleEndian : Obligations.PackIntegersEmitLittleEndian := fun s =>
  ⟨⟨isOperation_packInstr .bool, exec_packInstr .bool s⟩, ⟨isOperation_packInstr .byte, exec_packInstr .byte s⟩,
    ⟨isOperation_packInstr .int16, exec_packInstr .int16 s⟩, ⟨isOperation_packInstr .uint16, exec_packInstr .uint16 s⟩,
    ⟨isOperation_packInstr .int32, exec_packInstr .int32 s⟩, ⟨isOperation_packInstr .uint32, exec_packInstr .uint32 s⟩⟩

/-- Settles O2: the one meaning of `UNPACK.T`, at each type, of the bytes its width reads. -/
theorem unpackIntegersAssembleLittleEndian : Obligations.UnpackIntegersAssembleLittleEndian := fun _ _ _ _ _ _ =>
  ⟨⟨isOperation_unpackInstr .byte, fun h => exec_unpackInstr_of_value (T := .byte) (congrArg FieldValue.byte (fieldBytes_bits_low8 h))⟩,
    ⟨isOperation_unpackInstr .int16, fun h => exec_unpackInstr_of_value (T := .int16) (congrArg FieldValue.int16 (fieldBytes_bits_low16 h))⟩,
    ⟨isOperation_unpackInstr .uint16, fun h => exec_unpackInstr_of_value (T := .uint16) (congrArg FieldValue.uint16 (fieldBytes_bits_low16 h))⟩,
    ⟨isOperation_unpackInstr .int32, fun h => exec_unpackInstr_of_value (T := .int32) (congrArg FieldValue.int32 (fieldBytes_bits h))⟩,
    ⟨isOperation_unpackInstr .uint32, fun h => exec_unpackInstr_of_value (T := .uint32) (congrArg FieldValue.uint32 (fieldBytes_bits h))⟩⟩

/-- Settles O4: `numBytes` and `offset` are sums of widths, and `SCH.OFFSET` splits on `i ≤ sch.n`. -/
theorem schemaQueriesSumWidths : Obligations.SchemaQueriesSumWidths := by
  refine ⟨rfl, rfl, fun s => ⟨⟨isOperation_iff.2 rfl, ?_⟩, isOperation_iff.2 rfl, fun h => ?_, exec_schOffset_of_lt⟩⟩
  · rw [exec_schNumbytes, numBytes_eq_sum]
  · rw [exec_schOffset_of_le h, offset_eq_sum]

end Sys2Proof.Machine
end

section
/-! SUPPORT. Dense packing: where field `i` of a packed Record stands (20_memory.md R30), and the outcomes of `REC.GET` and `SCH.ENCODE`
(41_packet_schema.md R75, R76). -/

namespace Sys2Proof.Machine

theorem packRecord_eq_flatten (x : Record) : packRecord x = (x.map pack).flatten := by
  induction x with
  | nil => rfl
  | cons v x ih => simp [packRecord, ih]

theorem schemaOfRecord_getElem? {x : Record} {i : Nat} {v : FieldValue} (h : x[i]? = some v) : (schemaOfRecord x)[i]? = some v.type := by
  simp [schemaOfRecord, h]

/-- The next offset is the width of field `i` further on: no byte stands between two fields. -/
theorem offset_succ {sch : Schema} {i : Nat} {T : FieldType} (h : sch[i]? = some T) : offset sch (i + 1) = offset sch i + T.width := by
  simp [offset, List.take_add_one, h, numBytes_append, numBytes]

/-- The bytes of field `i` are behind the packed fields before it. -/
theorem slice_packRecord {x : Record} {i : Nat} {v : FieldValue} (h : x[i]? = some v) :
    slice (packRecord x) (offset (schemaOfRecord x) i) (offset (schemaOfRecord x) i + v.type.width) = pack v := by
  induction x generalizing i with
  | nil => cases h
  | cons w x ih =>
    cases i with
    | zero =>
      obtain rfl : w = v := Option.some.inj h
      simp [slice, packRecord, ← pack_length]
    | succ i =>
      rw [packRecord, schemaOfRecord_cons, offset_cons, ← pack_length w, Nat.add_assoc, slice_append_right]
      exact ih h

theorem exec_schEncode (s : State) : exec .schEncode s = .next { s with pay := packRecord (s.recordOf s.kind) } := rfl

theorem exec_recGet_of_some {s : State} {v : FieldValue} (h : (s.recordOf s.kind)[s.idx]? = some v) :
    exec .recGet s = .next (s.setValue v) := by
  simp [exec, execRecGet, h]

theorem exec_recGet_of_none {s : State} (h : (s.recordOf s.kind)[s.idx]? = none) : exec .recGet s = .refused .badIndex := by
  simp [exec, execRecGet, h]

end Sys2Proof.Machine
end

section
/-! The statements about the read of a Record register and the packed payload. -/

namespace Sys2Proof.Machine

/-- Settles O8: the payload is the packed Record, and field `i` stands behind the fields before it. -/
theorem schEncodePacksFieldsDensely : Obligations.SchEncodePacksFieldsDensely := by
  refine fun s => ⟨isOperation_iff.2 rfl, packRecord (s.recordOf s.kind), exec_schEncode s, packRecord_eq_flatten _, packRecord_length _,
    offset_zero _, fun i v hv => ?_⟩
  have hnext := offset_succ (schemaOfRecord_getElem? hv)
  refine ⟨hnext, ?_⟩
  rw [hnext, slice_packRecord hv]

/-- Settles O6: `REC.GET` splits on whether the Record has register `x[i]`. -/
theorem recGetReturnsRegister : Obligations.RecGetReturnsRegister := fun s =>
  ⟨isOperation_iff.2 rfl, fun v hv => ⟨s.vals.get_put_same v, exec_recGet_of_some hv⟩,
    fun hi => exec_recGet_of_none (List.getElem?_eq_none hi)⟩

end Sys2Proof.Machine
end

section
/-! SUPPORT. The escape of a region, byte by byte: a concatenation of escaped bytes, and its length (42_escape.md R80). -/

namespace Sys2Proof.Machine

theorem escape_eq_flatMap (s : List Byte) : escape s = s.flatMap escapeByte := by
  induction s with
  | nil => rfl
  | cons b s ih => rw [escape, ih, List.flatMap_cons]

/-- A reserved byte grows by one, any other byte not at all. -/
theorem escapeByte_length (b : Byte) :
    (escapeByte b).length = 1 + if b = Config.delim ∨ b = Config.esc then 1 else 0 := by
  rcases escapeByte_cases b with ⟨hb, h⟩ | ⟨hb, h⟩ | ⟨hd, he, h⟩
  · rw [h, if_pos (.inl hb)]; rfl
  · rw [h, if_pos (.inr hb)]; rfl
  · rw [h, if_neg (not_or.2 ⟨hd, he⟩)]; rfl

theorem escape_length (s : List Byte) :
    (escape s).length = s.length + s.countP (fun b => b = Config.delim ∨ b = Config.esc) := by
  induction s with
  | nil => rfl
  | cons b s ih =>
    simp only [escape, List.length_append, escapeByte_length, ih, List.length_cons, List.countP_cons, decide_eq_true_eq]
    omega

theorem exec_kissEsc (s : State) : exec .kissEsc s = .next { s with escr := escape s.raw } := rfl

end Sys2Proof.Machine
end

section
/-! The statement about the escape encoder. -/

namespace Sys2Proof.Machine

/-- Settles O12: the escaped region is the concatenation of the escaped bytes, which are those of the `WIRE8` rows, and its length is counted byte by
byte. -/
theorem kissEscReplacesReservedBytes : Obligations.KissEscReplacesReservedBytes := by
  refine fun s => ⟨isOperation_iff.2 rfl, escape s.raw, exec_kissEsc s, escape_eq_flatMap _, ?_, escape_length _⟩
  rw [funext U4.emitted_eq, escape_eq_flatMap]

end Sys2Proof.Machine
end

section
/-! SUPPORT. The word sum as an integer (43_checksum.md R85), the checksum as its complement, and what the two checksum operations answer (R86, R87). -/

namespace Sys2Proof.Machine

/-- What the byte `b.1` at offset `b.2` adds to the integer word sum (43_checksum.md R85). -/
def byteWeight (b : Byte × Nat) : Nat := b.1.toNat * (if b.2 % 2 = 0 then 1 else 256)

@[simp] theorem byteWeight_zero (b : Byte) : byteWeight (b, 0) = b.toNat := Nat.mul_one _

@[simp] theorem byteWeight_one (b : Byte) : byteWeight (b, 1) = b.toNat * 256 := rfl

@[simp] theorem byteWeight_add_two (b : Byte) (k : Nat) : byteWeight (b, k + 2) = byteWeight (b, k) := by
  simp [byteWeight]

/-- A byte's weight depends on the parity of its offset alone, so two bytes in front leave the weights behind them as they are. -/
theorem map_byteWeight_zipIdx_add_two (p : List Byte) (k : Nat) :
    (p.zipIdx (k + 2)).map byteWeight = (p.zipIdx k).map byteWeight := by
  rw [List.zipIdx_eq_map_add, List.zipIdx_eq_map_add (i := k)]
  simp [Nat.add_right_comm k 2]

/-- A little-endian word is its low byte and 256 times its high byte. -/
theorem toNat_append_byte (hi lo : Byte) : (hi ++ lo).toNat = lo.toNat + hi.toNat * 256 := by
  rw [BitVec.toNat_append, Nat.shiftLeft_eq, Nat.mul_comm, ← Nat.two_pow_add_eq_or_of_lt lo.isLt]
  omega

theorem toNat_wordSum_cons_cons (lo hi : Byte) (p : List Byte) :
    (wordSum (lo :: hi :: p)).toNat = (lo.toNat + hi.toNat * 256 + (wordSum p).toNat) % 65536 := by
  rw [wordSum, BitVec.toNat_add, toNat_append_byte]

/-- R85's integer law. -/
theorem toNat_wordSum (p : List Byte) : (wordSum p).toNat = (p.zipIdx.map byteWeight).sum % 65536 := by
  induction p using wordSum.induct with
  | case1 => rfl
  | case2 lo => simp [wordSum]
  | case3 lo hi p ih =>
    rw [toNat_wordSum_cons_cons, ih, Nat.add_mod_mod, List.zipIdx_cons, List.zipIdx_cons, List.map_cons, List.map_cons,
      map_byteWeight_zipIdx_add_two, List.sum_cons, List.sum_cons, ← Nat.add_assoc, byteWeight_zero, byteWeight_one]

/-- `0xFFFF - s` never borrows (43_checksum.md R86). -/
theorem checksum_eq_not (p : List Byte) : checksum p = ~~~(wordSum p) := BitVec.allOnes_sub_eq_not _

theorem exec_csumGen (s : State) : exec .csumGen s = .next { s with ck := ~~~(wordSum s.pay) } := by
  rw [← checksum_eq_not]; rfl

theorem exec_csumVfy (s : State) :
    exec .csumVfy s = .next { s with matched := some (if ~~~(wordSum s.pay) = s.rxck then 1 else 0) } := by
  rw [← checksum_eq_not]; rfl

end Sys2Proof.Machine
end

section
/-! The statements about the word sum and the checksum operations. -/

namespace Sys2Proof.Machine

/-- Settles O10: two bytes at a time, for the weights behind them depend on the parity of the offset alone. -/
theorem wordSumIsIntegerSumModulo : Obligations.WordSumIsIntegerSumModulo := toNat_wordSum

/-- Settles O11: both operations go through the checksum, which is the complement of the word sum. -/
theorem checksumOperationsComplementSum : Obligations.ChecksumOperationsComplementSum := fun s =>
  ⟨⟨isOperation_iff.2 rfl, exec_csumGen s⟩, isOperation_iff.2 rfl, exec_csumVfy s⟩

end Sys2Proof.Machine
end

section
/-! SUPPORT. A decode case by case: the framing test, the length and the checksum in the words of 60_exceptions.md R112 to R114, the outcome of
`FRM.DEC` in each case (44_framing.md R91), and the one way the three decoding operations answer it. -/

namespace Sys2Proof.Machine

theorem framingGood_iff_not_framingFails (f : List Byte) : framingGood f = true ↔ ¬ framingFails f := by
  rw [framingGood_iff, List.head?_eq_getElem?, List.getLast?_eq_getElem?, framingFails]
  simp only [not_or, not_lt, not_not]

/-- The received checksum is the pair of bytes behind the payload, the low one first (30_encoding.md R48 (c)). -/
theorem receivedChecksum_eq_append {N : Nat} {raw : List Byte} {lo hi : Byte} (hlo : raw[N]? = some lo) (hhi : raw[N + 1]? = some hi) :
    receivedChecksum N raw = hi ++ lo := by
  obtain ⟨hN, rfl⟩ := List.getElem?_eq_some_iff.1 hlo
  obtain ⟨hN1, rfl⟩ := List.getElem?_eq_some_iff.1 hhi
  rw [receivedChecksum, List.drop_eq_getElem_cons hN, List.drop_eq_getElem_cons hN1, assemble_pair_low]

/-- In a region of `N + 2` bytes the received checksum differs from `c` exactly when its two bytes do. -/
theorem ne_receivedChecksum_iff {N : Nat} {raw : List Byte} (h : raw.length = N + 2) (c : Half) :
    c ≠ receivedChecksum N raw ↔ ∀ lo hi, raw[N]? = some lo → raw[N + 1]? = some hi → c ≠ hi ++ lo := by
  constructor
  · intro hc lo hi hlo hhi
    rwa [← receivedChecksum_eq_append hlo hhi]
  · intro hc
    have hlo : raw[N]? = some raw[N] := List.getElem?_eq_getElem _
    have hhi : raw[N + 1]? = some raw[N + 1] := List.getElem?_eq_getElem _
    rw [receivedChecksum_eq_append hlo hhi]
    exact hc _ _ hlo hhi

theorem frameDecode_of_framingFails {f : List Byte} (sch : Schema) (hf : framingFails f) : frameDecode sch f = .err .badFraming :=
  if_neg fun good => (framingGood_iff_not_framingFails f).1 good hf

theorem frameDecode_of_length_ne {sch : Schema} {f : List Byte} (hf : ¬ framingFails f) (hl : (regionOf f).length ≠ numBytes sch + 2) :
    frameDecode sch f = .err .lengthMismatch :=
  (if_pos ((framingGood_iff_not_framingFails f).2 hf)).trans (if_neg hl)

theorem frameDecode_of_length_eq {sch : Schema} {f : List Byte} (hf : ¬ framingFails f) (hl : (regionOf f).length = numBytes sch + 2) :
    frameDecode sch f =
      if ~~~(wordSum ((regionOf f).take (numBytes sch))) = receivedChecksum (numBytes sch) (regionOf f) then
        .ok (unpackRecord sch ((regionOf f).take (numBytes sch)))
      else .err .checksumMismatch :=
  (if_pos ((framingGood_iff_not_framingFails f).2 hf)).trans <| (if_pos hl).trans <|
    if_congr ((checksumMatch_eq_one _ _).trans (by rw [checksum_eq_not]; rfl)) rfl rfl

/-- R112. -/
theorem frameDecode_eq_badFraming_iff {sch : Schema} {f : List Byte} : frameDecode sch f = .err .badFraming ↔ framingFails f := by
  by_cases hf : framingFails f
  · simp [frameDecode_of_framingFails sch hf, hf]
  · by_cases hl : (regionOf f).length = numBytes sch + 2
    · simp [frameDecode_of_length_eq hf hl, hf, ite_eq_iff]
    · simp [frameDecode_of_length_ne hf hl, hf]

/-- R113. -/
theorem frameDecode_eq_lengthMismatch_iff {sch : Schema} {f : List Byte} :
    frameDecode sch f = .err .lengthMismatch ↔ ¬ framingFails f ∧ (regionOf f).length ≠ numBytes sch + 2 := by
  by_cases hf : framingFails f
  · simp [frameDecode_of_framingFails sch hf, hf]
  · by_cases hl : (regionOf f).length = numBytes sch + 2
    · simp [frameDecode_of_length_eq hf hl, hl, ite_eq_iff]
    · simp [frameDecode_of_length_ne hf hl, hf, hl]

/-- R114. -/
theorem frameDecode_eq_checksumMismatch_iff {sch : Schema} {f : List Byte} :
    frameDecode sch f = .err .checksumMismatch ↔ ¬ framingFails f ∧ (regionOf f).length = numBytes sch + 2 ∧
      ~~~(wordSum ((regionOf f).take (numBytes sch))) ≠ receivedChecksum (numBytes sch) (regionOf f) := by
  by_cases hf : framingFails f
  · simp [frameDecode_of_framingFails sch hf, hf]
  · by_cases hl : (regionOf f).length = numBytes sch + 2
    · simp [frameDecode_of_length_eq hf hl, hf, hl]
    · simp [frameDecode_of_length_ne hf hl, hl]

/-- The three decoding operations are one decode at the packet kind of each (44_framing.md R91, 45_concrete_schemas.md R97, R101). -/
theorem exec_of_decoderKind {i : Instr} {s : State} {k : PacketKind} (h : decoderKind i s = some k) : exec i s = .next (decodeAt k s) := by
  cases i <;> cases h <;> rfl

/-- What a decode delivers shows the status of an error exactly when it is that error. -/
theorem State.deliver_status_eq_iff {s : State} {k : PacketKind} {r : FrameResult} {e : DecodeError} :
    (s.deliver k r).status = some e.status ↔ r = .err e := by
  cases r with
  | ok x => cases e <;> simp [DecodeError.status]
  | err d => cases d <;> cases e <;> simp [State.raise, State.setStatus, DecodeError.status]

/-- A decode completes, and answers an error exactly when the frame's outcome is that error. -/
theorem decode_status_eq_iff {i : Instr} {s : State} {k : PacketKind} {e : DecodeError} {P : Prop} (h : decoderKind i s = some k)
    (hP : frameDecode (s.schemaOf k) s.frame = .err e ↔ P) : ∃ t, exec i s = .next t ∧ (t.status = some e.status ↔ P) :=
  ⟨decodeAt k s, exec_of_decoderKind h, State.deliver_status_eq_iff.trans hP⟩

end Sys2Proof.Machine
end

section
/-! The statements about when a decode answers each of the three errors. -/

namespace Sys2Proof.Machine

/-- Settles O18: the framing test comes first and alone answers `BadFraming`. -/
theorem badFramingExactlyWhenFramingFails : Obligations.BadFramingExactlyWhenFramingFails := fun _ _ _ h =>
  decode_status_eq_iff (e := .badFraming) h frameDecode_eq_badFraming_iff

/-- Settles O19: the length test comes second, of the region after unescaping, and alone answers `LengthMismatch`. -/
theorem lengthMismatchExactlyWhenLengthDiffers : Obligations.LengthMismatchExactlyWhenLengthDiffers := fun _ _ _ h =>
  decode_status_eq_iff (e := .lengthMismatch) h frameDecode_eq_lengthMismatch_iff

/-- Settles O20: the checksum test comes last, of a region that does hold the two bytes of the received checksum. -/
theorem checksumMismatchExactlyWhenSumDiffers : Obligations.ChecksumMismatchExactlyWhenSumDiffers := fun _ _ _ h =>
  decode_status_eq_iff (e := .checksumMismatch) h <| frameDecode_eq_checksumMismatch_iff.trans <|
    and_congr_right fun _ => and_congr_right fun hl => ne_receivedChecksum_iff hl _

end Sys2Proof.Machine
end

section
/-! SUPPORT. The decoder and the encoder format by format: an operation number, a `WIRE8` byte, a `WIRE16` window (30_encoding.md R46, R47, R53). -/

namespace Sys2Proof.Machine

/-- The number an operation is listed with decodes to it. -/
theorem decodeOp6_of_encode {i : Instr} {op : Byte} (hf : formatOf i = .op6) (he : encode i = [op]) : decodeOp6 op = some i := by
  cases i <;> cases hf <;> cases he <;> rfl

/-- An operation number that decodes is the one its instruction is listed with. -/
theorem encode_of_decodeOp6 {op : Byte} {i : Instr} (h : decodeOp6 op = some i) :
    encode i = [op] ∧ formatOf i = .op6 ∧ i.wellFormed = true := by
  unfold decodeOp6 at h
  split at h
  all_goals cases h
  all_goals
    next hop => exact ⟨congrArg (· :: []) (BitVec.eq_of_toNat_eq hop).symm, rfl, rfl⟩

theorem wellFormed_keeLit (b : Byte) : (Instr.keeLit b).wellFormed = true ↔ b ≠ Config.delim ∧ b ≠ Config.esc := by simp [Instr.wellFormed]

theorem wellFormed_kedLit (b : Byte) : (Instr.kedLit b).wellFormed = true ↔ b ≠ Config.esc := by simp [Instr.wellFormed]

theorem decodeWire8_wellFormed (b : Byte) : (decodeWire8 b).wellFormed = true := by
  unfold decodeWire8
  split_ifs with hd he
  · rfl
  · rfl
  · exact (wellFormed_keeLit b).2 ⟨hd, he⟩

theorem encode_decodeWire8 (b : Byte) : encode (decodeWire8 b) = [b] ∧ formatOf (decodeWire8 b) = .wire8 := by
  unfold decodeWire8
  split_ifs with hd he
  · subst hd; exact ⟨rfl, rfl⟩
  · subst he; exact ⟨rfl, rfl⟩
  · exact ⟨rfl, rfl⟩

theorem decodeWire8_lit {b : Byte} (h : (Instr.keeLit b).wellFormed = true) : decodeWire8 b = .keeLit b := by
  obtain ⟨hd, he⟩ := (wellFormed_keeLit b).1 h
  exact (if_neg hd).trans (if_neg he)

theorem decodeWire16_lit {b : Byte} (h : b ≠ Config.esc) (next : Option Byte) : decodeWire16 b next = .kedLit b := if_neg h

theorem decodeWire16_lone {next : Option Byte} (hd : next ≠ some Config.tDelim) (he : next ≠ some Config.tEsc) :
    decodeWire16 Config.esc next = .kedLone :=
  (if_pos rfl).trans <| (if_neg hd).trans (if_neg he)

/-- The row of a `WIRE16` window is well-formed, and the window is its bytes and those it leaves. -/
theorem encode_decodeWire16 (b : Byte) (bs : List Byte) :
    b :: bs = encode (decodeWire16 b bs.head?) ++ (b :: bs).drop (wire16Length (decodeWire16 b bs.head?)) ∧
      formatOf (decodeWire16 b bs.head?) = .wire16 ∧ (decodeWire16 b bs.head?).wellFormed = true := by
  unfold decodeWire16
  split_ifs with hb hd he
  · obtain ⟨c, rfl⟩ := List.head?_eq_some_iff.1 hd; subst hb; exact ⟨rfl, rfl, rfl⟩
  · obtain ⟨c, rfl⟩ := List.head?_eq_some_iff.1 he; subst hb; exact ⟨rfl, rfl, rfl⟩
  · subst hb; exact ⟨rfl, rfl, rfl⟩
  · exact ⟨rfl, rfl, (wellFormed_kedLit b).2 hb⟩

theorem decode_op6_of_some {op : Byte} {i : Instr} (h : decodeOp6 op = some i) (ops : List Byte) : decode .op6 (op :: ops) = .instr i ops := by
  simp [decode, h]

theorem decode_op6_of_none {op : Byte} (h : decodeOp6 op = none) (ops : List Byte) :
    decode .op6 (op :: ops) = .reject (.unassigned op) := by
  simp [decode, h]

theorem decode_wire16_of_row {b : Byte} {bs : List Byte} {i : Instr} (h : decodeWire16 b bs.head? = i) :
    decode .wire16 (b :: bs) = .instr i ((b :: bs).drop (wire16Length i)) := by
  rw [← h]; rfl

/-- Every operation is encoded in one byte, its number. -/
theorem encode_op6 {i : Instr} (h : formatOf i = .op6) : ∃ op, encode i = [op] := by
  cases i <;> cases h <;> exact ⟨_, rfl⟩

/-- An operation decodes from its number, whatever follows. -/
theorem decode_encode_op6 {i : Instr} (h : formatOf i = .op6) (rest : List Byte) : decode .op6 (encode i ++ rest) = .instr i rest := by
  obtain ⟨op, he⟩ := encode_op6 h
  rw [he]
  exact decode_op6_of_some (decodeOp6_of_encode h he) rest

/-- A frame position decodes from the byte it writes or examines, whatever follows. -/
theorem decode_actByte (p : FramePos) (a : FrameAct) (rest : List Byte) :
    decode (.framepos p (actDirection a)) (actByte p a :: rest) = .instr (framePosInstr p a) rest := by
  cases a with
  | send => exact if_pos rfl
  | receive b => rfl

end Sys2Proof.Machine
end

section
/-! The statements about the decoder and the encoder. -/

namespace Sys2Proof.Machine

/-- Settles O31: an operation by its number; a wire row by the byte or the pair it stands for, where well-formedness keeps a literal from being an
earlier row's byte; a frame position by its byte. -/
theorem decodeOfEncodeIsInstruction : Obligations.DecodeOfEncodeIsInstruction := by
  intro i rest hwf hlone
  cases i with
  | keeDelim | keeEsc | kedPairDelim | kedPairEsc => rfl
  | keeLit b => exact congrArg (Decoded.instr · rest) (decodeWire8_lit hwf)
  | kedLone =>
    obtain ⟨hd, he⟩ := hlone rfl
    exact decode_wire16_of_row (decodeWire16_lone hd he)
  | kedLit b => exact decode_wire16_of_row (decodeWire16_lit ((wellFormed_kedLit b).1 hwf) _)
  | frmLead a => exact decode_actByte .lead a rest
  | frmLink a => exact decode_actByte .link a rest
  | frmTrail a => exact decode_actByte .trail a rest
  | _ => exact decode_encode_op6 rfl rest

/-- Settles O32: format by format, each row's bytes are those it was decoded from. -/
theorem encodeOfDecodeIsWord : Obligations.EncodeOfDecodeIsWord := by
  intro f bytes rest i h
  cases bytes with
  | nil => cases h
  | cons b bs =>
    cases f with
    | op6 =>
      cases hop : decodeOp6 b with
      | none => simp [decode, hop] at h
      | some j =>
        rw [decode_op6_of_some hop] at h
        cases h
        obtain ⟨he, hf, hw⟩ := encode_of_decodeOp6 hop
        exact ⟨by rw [he]; rfl, hf, hw⟩
    | wire8 =>
      cases h
      obtain ⟨he, hf⟩ := encode_decodeWire8 b
      exact ⟨by rw [he]; rfl, hf, decodeWire8_wellFormed b⟩
    | wire16 => cases h; exact encode_decodeWire16 b bs
    | framepos p d =>
      cases d with
      | receive => cases h; cases p <;> exact ⟨rfl, rfl, rfl⟩
      | send =>
        simp only [decode] at h
        split at h
        · next hb => cases h; subst hb; cases p <;> exact ⟨rfl, rfl, rfl⟩
        · cases h

/-- Settles O29: a byte that is no operation's number is rejected by the decoder, and the step refuses it. -/
theorem unassignedOperationsRefused : Obligations.UnassignedOperationsRefused := by
  intro s op ops rest hp
  cases hop : decodeOp6 op with
  | some i =>
    obtain ⟨he, hf, -⟩ := encode_of_decodeOp6 hop
    exact .inl ⟨i, decode_op6_of_some hop ops, he, hf⟩
  | none =>
    refine .inr ⟨fun i hf he => ?_, ?_⟩
    · cases hop.symm.trans (decodeOp6_of_encode hf he)
    · rw [step_interact hp, interact, decode_op6_of_none hop]; rfl

/-- Settles O30: the bytes left over are the next interaction, and none is when nothing is left. -/
theorem stepRunsDecodedInstruction : Obligations.StepRunsDecodedInstruction := by
  intro s f bytes left rest i hp hd _
  rw [step_interact hp, interact, hd]
  cases left <;> rfl

/-- Settles O28: each word is a closed computation. -/
theorem tableWordsDecode : Obligations.TableWordsDecode := by
  unfold Obligations.TableWordsDecode
  decide

end Sys2Proof.Machine
end

section
/-! SUPPORT. Bytes and registers: a register is its bytes put together, and bytes put together give the register they are of (40_field_types.md R56 to
R69); what `UNPACK.T` reads of a short payload (log 24). -/

namespace Sys2Proof.Machine

theorem leBytes16_append (hi lo : Byte) : leBytes16 (hi ++ lo) = [lo, hi] :=
  congrArg₂ (fun a b => [a, b]) BitVec.extractLsb'_append_eq_right BitVec.extractLsb'_append_eq_left

theorem append_leBytes16 (v : Half) : v.extractLsb' 8 8 ++ v.extractLsb' 0 8 = v :=
  (BitVec.extractLsb'_append_extractLsb'_eq_extractLsb' (start₁ := 0) (len₁ := 8) (len₂ := 8) rfl).trans BitVec.extractLsb'_eq_self

/-- The bytes of a register of four bytes: the low one, then those of the rest. -/
theorem leBytes32_append (h : BitVec 24) (b : Byte) :
    leBytes32 (h ++ b) = [b, h.extractLsb' 0 8, h.extractLsb' 8 8, h.extractLsb' 16 8] := by
  have low : (h ++ b).extractLsb' 0 8 = b := BitVec.extractLsb'_append_eq_right
  have high : ∀ k, (h ++ b).extractLsb' (k + 8) 8 = h.extractLsb' k 8 := fun k => BitVec.extractLsb'_append_eq_of_le (Nat.le_add_left 8 k)
  exact congrArg₂ List.cons low (congrArg₂ List.cons (high 0) (congrArg₂ List.cons (high 8) (congrArg (· :: []) (high 16))))

theorem leBytes32_four (b3 b2 b1 b0 : Byte) : leBytes32 (b3 ++ b2 ++ b1 ++ b0) = [b0, b1, b2, b3] := by
  have mid : (b3 ++ b2 ++ b1).extractLsb' 8 8 = b2 := (BitVec.extractLsb'_append_eq_of_le le_rfl).trans BitVec.extractLsb'_append_eq_right
  have top : (b3 ++ b2 ++ b1).extractLsb' 16 8 = b3 :=
    (BitVec.extractLsb'_append_eq_of_le (by decide)).trans BitVec.extractLsb'_append_eq_left
  have low : (b3 ++ b2 ++ b1).extractLsb' 0 8 = b1 := BitVec.extractLsb'_append_eq_right
  refine (leBytes32_append (b3 ++ b2 ++ b1) b0).trans ?_
  rw [low, mid, top]

theorem append_leBytes32 (v : Word) : v.extractLsb' 24 8 ++ v.extractLsb' 16 8 ++ v.extractLsb' 8 8 ++ v.extractLsb' 0 8 = v := by
  have top : v.extractLsb' 24 8 ++ v.extractLsb' 16 8 = v.extractLsb' 16 16 := BitVec.extractLsb'_append_extractLsb'_eq_extractLsb' rfl
  have mid : v.extractLsb' 16 16 ++ v.extractLsb' 8 8 = v.extractLsb' 8 24 := BitVec.extractLsb'_append_extractLsb'_eq_extractLsb' rfl
  have low : v.extractLsb' 8 24 ++ v.extractLsb' 0 8 = v.extractLsb' 0 32 := BitVec.extractLsb'_append_extractLsb'_eq_extractLsb' rfl
  rw [top]
  exact (congrArg (· ++ v.extractLsb' 0 8) mid).trans (low.trans BitVec.extractLsb'_eq_self)

/-- A Bool byte is true unless it is `00`, and is written as `01` (40_field_types.md R56, R63). -/
theorem pack_unpack_bool (b : Byte) : pack (unpack .bool [b]) = [if b = 0 then 0 else 1] := by
  simp only [unpack, fieldOfBits, pack, assemble_cons_low]
  split_ifs <;> rfl

theorem unpack_pack (v : FieldValue) : unpack v.type (pack v) = v := by
  cases v with
  | bool v =>
    have bit : ∀ v : Bit, (if v.setWidth 8 = (0 : Byte) then (0 : Bit) else 1) = v := by decide
    simp only [unpack, fieldOfBits, pack, FieldValue.type, assemble_cons_low, bit]
  | byte v => exact congrArg FieldValue.byte (assemble_cons_low _ _)
  | int16 v => exact congrArg FieldValue.int16 ((assemble_pair_low _ _ _).trans (append_leBytes16 v))
  | uint16 v => exact congrArg FieldValue.uint16 ((assemble_pair_low _ _ _).trans (append_leBytes16 v))
  | int32 v => exact congrArg FieldValue.int32 ((assemble_four _ _ _ _).trans (append_leBytes32 v))
  | uint32 v => exact congrArg FieldValue.uint32 ((assemble_four _ _ _ _).trans (append_leBytes32 v))
  | float32 v => exact congrArg FieldValue.float32 ((assemble_four _ _ _ _).trans (append_leBytes32 v))

/-- Packing what a field's bytes unpack to gives the bytes, but for a Bool byte above `01`. -/
theorem pack_unpack {T : FieldType} {bs : List Byte} (h : bs.length = T.width) : pack (unpack T bs) = normalField T bs := by
  cases T with
  | bool => obtain ⟨b, rfl⟩ := List.length_eq_one_iff.1 h; exact pack_unpack_bool b
  | byte => obtain ⟨b, rfl⟩ := List.length_eq_one_iff.1 h; exact congrArg (· :: []) (assemble_cons_low _ _)
  | int16 | uint16 =>
    obtain ⟨b0, b1, rfl⟩ := List.length_eq_two.1 h
    exact (congrArg leBytes16 (assemble_pair_low _ _ _)).trans (leBytes16_append _ _)
  | int32 | uint32 | float32 =>
    obtain ⟨b0, b1, b2, b3, rfl⟩ := List.length_eq_four.1 h
    exact (congrArg leBytes32 (assemble_four _ _ _ _)).trans (leBytes32_four _ _ _ _)

theorem normalField_of_ne_bool {T : FieldType} (h : T ≠ .bool) (bs : List Byte) : normalField T bs = bs := by
  cases T with
  | bool => exact absurd rfl h
  | _ => rfl

/-- Of four bytes a register keeps those of its width. -/
theorem fieldOfBits_assemble_four (T : FieldType) (b0 b1 b2 b3 : Byte) :
    fieldOfBits T (assemble [b0, b1, b2, b3]) = unpack T ([b0, b1, b2, b3].take T.width) := by
  cases T with
  | bool | byte => simp [unpack, fieldOfBits, FieldType.width, assemble_cons_low]
  | int16 | uint16 => simp [unpack, fieldOfBits, FieldType.width, assemble_pair_low]
  | int32 | uint32 | float32 => rfl

/-- The operand bytes of `UNPACK.T` are the first four of the payload continued by the lanes. -/
theorem State.fieldBytes_eq_take (s : State) :
    [s.fieldBytes.b0, s.fieldBytes.b1, s.fieldBytes.b2, s.fieldBytes.b3] =
      (s.pay ++ [s.fbytes.b0, s.fbytes.b1, s.fbytes.b2, s.fbytes.b3].drop s.pay.length).take 4 := by
  unfold State.fieldBytes
  generalize s.pay = p
  rcases p with _ | ⟨b0, _ | ⟨b1, _ | ⟨b2, _ | ⟨b3, r⟩⟩⟩⟩ <;> rfl

/-- What `UNPACK.T` makes of its operand bytes. -/
theorem State.fieldOfBits_fieldBytes (s : State) (T : FieldType) :
    fieldOfBits T s.fieldBytes.bits =
      unpack T ((s.pay ++ [s.fbytes.b0, s.fbytes.b1, s.fbytes.b2, s.fbytes.b3].drop s.pay.length).take T.width) := by
  rw [FieldBytes.bits, fieldOfBits_assemble_four, State.fieldBytes_eq_take, List.take_take, Nat.min_eq_left T.width_le_four]

end Sys2Proof.Machine
end

section
/-! The statements about the bytes of one field. -/

namespace Sys2Proof.Machine

/-- Settles O41: both round trips type by type; the Bool byte that comes back is `00` or `01`. -/
theorem fieldRoundTrips : Obligations.FieldRoundTrips := by
  refine ⟨fun v => ⟨unpack_pack v, pack_length v⟩, fun T bs hlen => ⟨unpack_type T bs, fun hT => ?_, fun hT => ?_⟩⟩
  · rw [pack_unpack hlen, normalField_of_ne_bool hT]
  · subst hT
    obtain ⟨b, rfl⟩ := List.length_eq_one_iff.1 hlen
    rw [pack_unpack_bool, List.singleton_inj, List.singleton_inj, List.singleton_inj]
    split_ifs with hb
    · exact ⟨fun _ => .inl hb, fun _ => hb.symm⟩
    · exact ⟨fun h => .inr h.symm, fun h => (h.resolve_left hb).symm⟩

/-- Settles O3: the one meaning of `PACK.T` and of `UNPACK.T`, at Float32 and Bool. -/
theorem boolAndFloatFieldsFollowDecisions : Obligations.BoolAndFloatFieldsFollowDecisions := fun s _ _ _ _ _ =>
  ⟨⟨isOperation_packInstr .float32, exec_packInstr .float32 s⟩,
    ⟨isOperation_unpackInstr .float32, fun h => exec_unpackInstr_of_value (T := .float32) (congrArg FieldValue.float32 (fieldBytes_bits h))⟩,
    ⟨isOperation_unpackInstr .bool, fun h => exec_unpackInstr_of_value (T := .bool)
      (congrArg (fun b : Byte => FieldValue.bool (if b = 0 then 0 else 1)) (fieldBytes_bits_low8 h))⟩⟩

/-- Settles O60: the one meaning of `UNPACK.T`, of the payload continued by the lanes. -/
theorem unpackCompletesOnShortPayloads : Obligations.UnpackCompletesOnShortPayloads := by
  intro s i T hi
  have hT : i = T.unpackInstr := by cases T <;> simpa [FieldType.unpackInstr] using hi
  exact ⟨fieldOfBits T s.fieldBytes.bits, fieldOfBits_type T _, hT ▸ exec_unpackInstr T s, s.fieldOfBits_fieldBytes T⟩

end Sys2Proof.Machine
end

section
/-! SUPPORT. The schema codec on whole payloads (41_packet_schema.md R76, R77): where field `i` is unpacked from, and both round trips. -/

namespace Sys2Proof.Machine

/-- Field `i` is unpacked from the bytes at its offset. -/
theorem unpackRecord_getElem? {sch : Schema} {i : Nat} {T : FieldType} (h : sch[i]? = some T) (bs : List Byte) :
    (unpackRecord sch bs)[i]? = some (unpack T (slice bs (offset sch i) (offset sch i + T.width))) := by
  induction sch generalizing i bs with
  | nil => cases h
  | cons U sch ih =>
    cases i with
    | zero =>
      obtain rfl : U = T := Option.some.inj h
      simp [unpackRecord, slice]
    | succ i =>
      rw [unpackRecord, List.getElem?_cons_succ, ih h, offset_cons]
      simp [slice, List.drop_take, List.drop_drop]

theorem unpackRecord_packRecord (x : Record) : unpackRecord (schemaOfRecord x) (packRecord x) = x := by
  induction x with
  | nil => rfl
  | cons v x ih =>
    rw [schemaOfRecord_cons, packRecord, unpackRecord, ← pack_length v, List.take_left, List.drop_left, ih, unpack_pack]

theorem packRecord_unpackRecord {sch : Schema} {bs : List Byte} (h : bs.length = numBytes sch) :
    packRecord (unpackRecord sch bs) = normalPayload sch bs := by
  induction sch generalizing bs with
  | nil => rfl
  | cons T sch ih =>
    rw [numBytes] at h
    have first : (bs.take T.width).length = T.width := by rw [List.length_take]; omega
    have rest : (bs.drop T.width).length = numBytes sch := by rw [List.length_drop]; omega
    rw [unpackRecord, packRecord, normalPayload, pack_unpack first, ih rest]

theorem exec_schDecode_of_length {s : State} (h : s.pay.length = numBytes (s.schemaOf s.kind)) :
    exec .schDecode s = .next (s.freshRecord s.kind (unpackRecord (s.schemaOf s.kind) s.pay)) := if_pos h

theorem exec_schDecode_of_length_ne {s : State} (h : s.pay.length ≠ numBytes (s.schemaOf s.kind)) :
    exec .schDecode s = .refused .badLength := if_neg h

end Sys2Proof.Machine
end

section
/-! The statements about the schema codec. -/

namespace Sys2Proof.Machine

/-- Settles O9: the length test, and the unpacked Record field by field. -/
theorem schDecodeUnpacksFieldsInOrder : Obligations.SchDecodeUnpacksFieldsInOrder := fun s =>
  ⟨isOperation_iff.2 rfl,
    fun hlen => ⟨_, exec_schDecode_of_length hlen, unpackRecord_schema _ _, fun _ _ hT => unpackRecord_getElem? hT s.pay⟩,
    exec_schDecode_of_length_ne⟩

/-- Settles O42: the encoding has the length of its schema, so the decode completes, and it gives the Record back. -/
theorem payloadRoundTrips : Obligations.PayloadRoundTrips := by
  refine ⟨fun s hs => ⟨_, exec_schEncode s, ?_⟩, fun s hlen => ⟨_, exec_schDecode_of_length hlen, ?_⟩⟩
  · have hlen : (packRecord (s.recordOf s.kind)).length = numBytes (s.schemaOf s.kind) := by rw [packRecord_length, hs]
    refine (exec_schDecode_of_length (s := { s with pay := packRecord (s.recordOf s.kind) }) hlen).trans ?_
    have back : unpackRecord (s.schemaOf s.kind) (packRecord (s.recordOf s.kind)) = s.recordOf s.kind := by
      rw [← hs, unpackRecord_packRecord]
    exact congrArg (fun x => Host.Outcome.next (State.freshRecord { s with pay := packRecord (s.recordOf s.kind) } s.kind x)) back
  · rw [exec_schEncode, ← packRecord_unpackRecord hlen, State.freshRecord_kind, State.recordOf_freshRecord, State.recordOf_setRecord_same]

end Sys2Proof.Machine
end

section
/-! SUPPORT. What an instruction can do, said once: `Effect s i t` when `exec i s` completes with `t` (10_state.md R25, R27). -/

namespace Sys2Proof.Machine

/-- The next states of an instruction, by what it writes. -/
inductive Effect (s : State) : Instr → State → Prop
  | pay {i} (p : List Byte) (hi : i ∈ [Instr.packBool, .packByte, .packI16, .packU16, .packI32, .packU32, .packF32, .schEncode]) :
      Effect s i { s with pay := p }
  | raw {i} (p : List Byte) (hi : i ∈ [Instr.kissUnesc, .kedPairDelim, .kedPairEsc, .kedLone] ∨ ∃ b, i = .kedLit b) :
      Effect s i { s with raw := p }
  | escr {i} (p : List Byte) (hi : i ∈ [Instr.kissEsc, .keeDelim, .keeEsc] ∨ ∃ b, i = .keeLit b) : Effect s i { s with escr := p }
  | frame {i} (p : List Byte) (hi : i ∈ [Instr.frmEnc, .cmdFmt, .tlmFmt] ∨ ∃ a, i = .frmLead a ∨ i = .frmLink a ∨ i = .frmTrail a) :
      Effect s i { s with frame := p }
  | value {i} (v : FieldValue) : Effect s i (s.setValue v)
  | count {i} (n : Nat) : Effect s i { s with count := n }
  | ck {i} (c : Half) : Effect s i { s with ck := c }
  | reading {i} (q r : Rat) : Effect s i { s with reading := q, evaluated := r }
  | matched (m : Bit) : Effect s .csumVfy { s with matched := some m }
  | fresh {i} (x : Record) (hi : i ∈ [Instr.recNew, .schDecode]) (hx : schemaOfRecord x = s.schemaOf s.kind) :
      Effect s i (s.freshRecord s.kind x)
  | register {old : FieldValue} (hold : (s.recordOf s.kind)[s.idx]? = some old) (hl : s.lent s.kind = false) :
      Effect s .recSet (s.setRecord s.kind ((s.recordOf s.kind).set s.idx (s.vals.get old.type)))
  | decode {i} (k : PacketKind) (hi : i ∈ [Instr.frmDec, .cmdParse, .tlmParse]) : Effect s i (decodeAt k s)

theorem Effect.of_readInteger {i : Instr} {n : FieldName} {c : Config.Conversion} {s t : State} (h : readInteger n c s = .next t) : Effect s i t := by
  rcases readInteger_cases n c s with ⟨v, z, -, -, e⟩ | ⟨-, e⟩ | ⟨v, -, -, e⟩
  · cases e.symm.trans h; exact .reading _ _
  · cases e.symm.trans h
  · cases e.symm.trans h

/-- What `ACC.RELAY` answers: a bit of a register that is no Bool, or a refusal of the number or of the layout (45_concrete_schemas.md R109). -/
theorem execAccRelay_cases (s : State) :
    (3 < s.relay ∧ execAccRelay s = .refused .badRelay) ∨
    (s.relay ≤ 3 ∧ s.telemetryField .relayStates = none ∧ execAccRelay s = .refused .badIndex) ∨
    (s.relay ≤ 3 ∧ ∃ v, s.telemetryField .relayStates = some v ∧ v.type = .bool ∧ execAccRelay s = .refused .badArity) ∨
    (s.relay ≤ 3 ∧ ∃ v, s.telemetryField .relayStates = some v ∧ v.type ≠ .bool ∧
      execAccRelay s = .next (s.setValue (.bool ((fieldBits v).extractLsb' s.relay 1)))) := by
  by_cases hk : s.relay ≤ 3
  · cases hf : s.telemetryField .relayStates with
    | none => exact .inr (.inl ⟨hk, rfl, by simp [execAccRelay, hk, hf]⟩)
    | some v =>
      by_cases hv : v.type = .bool
      · refine .inr (.inr (.inl ⟨hk, v, rfl, hv, ?_⟩))
        cases v <;> cases hv
        simp [execAccRelay, hk, hf]
      · refine .inr (.inr (.inr ⟨hk, v, rfl, hv, ?_⟩))
        cases v with
        | bool v => exact absurd rfl hv
        | _ => simp [execAccRelay, hk, hf]
  · exact .inl ⟨Nat.not_le.1 hk, if_neg hk⟩

theorem Effect.of_exec {i : Instr} {s t : State} (h : exec i s = .next t) : Effect s i t := by
  cases i with
  | packBool | packByte | packI16 | packU16 | packI32 | packU32 | packF32 | schEncode => cases h; exact .pay _ (by decide)
  | unpackBool | unpackByte | unpackI16 | unpackU16 | unpackI32 | unpackU32 | unpackF32 => cases h; exact .value _
  | schNumbytes => cases h; exact .count _
  | schOffset =>
    by_cases hi : s.idx ≤ (s.schemaOf s.kind).length
    · cases (exec_schOffset_of_le hi).symm.trans h; exact .count _
    · cases (exec_schOffset_of_lt (Nat.not_le.1 hi)).symm.trans h
  | recNew => cases h; exact .fresh _ (by decide) (newRecord_schema _)
  | recSet =>
    rcases execRecSet_cases s with ⟨-, e⟩ | ⟨-, -, -, e⟩ | ⟨old, hold, hl, e⟩
    · cases e.symm.trans h
    · cases e.symm.trans h
    · cases e.symm.trans h; exact .register hold hl
  | recGet =>
    cases hv : (s.recordOf s.kind)[s.idx]? with
    | none => cases (exec_recGet_of_none hv).symm.trans h
    | some v => cases (exec_recGet_of_some hv).symm.trans h; exact .value v
  | schDecode =>
    by_cases hl : s.pay.length = numBytes (s.schemaOf s.kind)
    · cases (exec_schDecode_of_length hl).symm.trans h; exact .fresh _ (by decide) (unpackRecord_schema _ _)
    · cases (exec_schDecode_of_length_ne hl).symm.trans h
  | csumGen => cases h; exact .ck _
  | csumVfy => cases h; exact .matched _
  | kissEsc | keeDelim | keeEsc => cases h; exact .escr _ (.inl (by decide))
  | keeLit b => cases h; exact .escr _ (.inr ⟨b, rfl⟩)
  | kissUnesc | kedPairDelim | kedPairEsc | kedLone => cases h; exact .raw _ (.inl (by decide))
  | kedLit b => cases h; exact .raw _ (.inr ⟨b, rfl⟩)
  | tlmFmt | frmEnc | cmdFmt => cases h; exact .frame _ (.inl (by decide))
  | frmLead a => cases a <;> cases h <;> exact .frame _ (.inr ⟨_, .inl rfl⟩)
  | frmLink a => cases a <;> cases h <;> exact .frame _ (.inr ⟨_, .inr (.inl rfl)⟩)
  | frmTrail a => cases a <;> cases h <;> exact .frame _ (.inr ⟨_, .inr (.inr rfl)⟩)
  | cmdParse | frmDec | tlmParse => cases h; exact .decode _ (by decide)
  | accPressure | accAltitude | accSpeed | accLat | accLon | accResettime | accDataage => exact .of_readInteger h
  | accRelay =>
    rcases execAccRelay_cases s with ⟨-, e⟩ | ⟨-, -, e⟩ | ⟨-, -, -, -, e⟩ | ⟨-, v, -, -, e⟩
    · cases e.symm.trans h
    · cases e.symm.trans h
    · cases e.symm.trans h
    · cases e.symm.trans h; exact .value _
  | cmdLookup =>
    cases hn : lookupCommand s.name s.commandTable with
    | none => simp [exec, execCmdLookup, hn] at h
    | some b =>
      have e : exec .cmdLookup s = .next (s.setValue (.byte b)) := by simp [exec, execCmdLookup, hn]
      cases e.symm.trans h; exact .value _

end Sys2Proof.Machine
end

section
/-! The statements about what an operation writes and leaves unchanged. -/

namespace Sys2Proof.Machine

/-- The schemas depend on the generic schema operand and the Telemetry layout alone. -/
theorem State.schemaOf_congr {s t : State} (hs : t.sch = s.sch) (hl : t.tlmLayout = s.tlmLayout) (k : PacketKind) :
    t.schemaOf k = s.schemaOf k := by
  cases k with
  | command => rfl
  | telemetry => exact congrArg schemaOfLayout hl
  | generic => exact hs

theorem Effect.sameOperands {s t : State} {i : Instr} (h : Effect s i t) : sameOperands s t := by
  cases h <;> simp [Machine.sameOperands, decodeAt]

theorem Effect.sameUnits {s t : State} {i : Instr} (h : Effect s i t) : sameUnits s t := by
  cases h <;> simp [Machine.sameUnits, decodeAt]

theorem Effect.schemaOf {s t : State} {i : Instr} (h : Effect s i t) (k : PacketKind) : t.schemaOf k = s.schemaOf k := by
  obtain ⟨hs, hl, -⟩ := h.sameOperands
  exact State.schemaOf_congr hs hl k

/-- The outcome of a decode that delivers no Record leaves the Records alone. -/
theorem decodeAt_sameRecords_or_ok (k : PacketKind) (s : State) : sameRecords s (decodeAt k s) ∨ (decodeAt k s).status = some .ok := by
  unfold decodeAt
  cases frameDecode (s.schemaOf k) s.frame with
  | ok x => exact .inr rfl
  | err e => exact .inl ⟨rfl, rfl, rfl⟩

/-- Settles O36: no effect of an instruction is on an operand, the configuration or a unit. -/
theorem operationsLeaveOperandsAndUnits : Obligations.OperationsLeaveOperandsAndUnits := fun _ _ _ h =>
  ⟨(Effect.of_exec h).sameOperands, (Effect.of_exec h).sameUnits⟩

/-- Settles O37: the effects on a Record are those of the named operations, and an error delivers none. -/
theorem recordsWrittenOnlyByNamedOperations : Obligations.RecordsWrittenOnlyByNamedOperations := by
  intro i s t h hne
  cases Effect.of_exec h with
  | fresh x hi hx => exact .inl (by revert hi; simp +contextual [or_imp])
  | register => exact .inl (by decide)
  | decode k hi => exact .inr ⟨hi, (decodeAt_sameRecords_or_ok k s).resolve_left hne⟩
  | _ => exact absurd ⟨rfl, rfl, rfl⟩ hne

/-- Settles O38: the effects on `status` and `match` are those of the named operations. -/
theorem flagsWrittenOnlyByNamedOperations : Obligations.FlagsWrittenOnlyByNamedOperations := by
  intro i s t h
  cases Effect.of_exec h with
  | matched m => exact ⟨fun hne => absurd rfl hne, fun _ => rfl⟩
  | decode k hi => exact ⟨fun _ => hi, fun hne => absurd (State.deliver_matched s k _) hne⟩
  | _ => exact ⟨fun hne => absurd (by simp) hne, fun hne => absurd (by simp) hne⟩

/-- Settles O39: the effects on each buffer are those of the operations named for it. -/
theorem buffersWrittenOnlyByNamedOperations : Obligations.BuffersWrittenOnlyByNamedOperations := by
  intro i s t h
  cases Effect.of_exec h with
  | pay p hi => exact ⟨fun _ => hi, absurd rfl, absurd rfl, absurd rfl⟩
  | raw p hi => exact ⟨absurd rfl, fun _ => hi, absurd rfl, absurd rfl⟩
  | escr p hi => exact ⟨absurd rfl, absurd rfl, fun _ => hi, absurd rfl⟩
  | frame p hi => exact ⟨absurd rfl, absurd rfl, absurd rfl, fun _ => hi⟩
  | _ => exact ⟨absurd (by simp [decodeAt]), absurd (by simp [decodeAt]), absurd (by simp [decodeAt]), absurd (by simp [decodeAt])⟩

end Sys2Proof.Machine
end

section
/-! The statements about the Record operations. -/

namespace Sys2Proof.Machine

theorem newRecord_command : newRecord commandSchema = newCommandRecord := if_pos rfl

theorem newRecord_of_ne {sch : Schema} (h : sch ≠ commandSchema) : newRecord sch = sch.map FieldType.zero := if_neg h

theorem exec_recNew (s : State) : exec .recNew s = .next (s.freshRecord s.kind (newRecord (s.schemaOf s.kind))) := rfl

theorem Layout.mem_of_hasField {l : Layout} {n : FieldName} {T : FieldType} (h : l.hasField n T = true) : (n, T) ∈ l := by
  simpa [Layout.hasField] using h

theorem Layout.mem_of_hasSome {l : Layout} {n : FieldName} {p : FieldType → Bool} (h : l.hasSome n p = true) :
    ∃ T, (n, T) ∈ l ∧ p T = true := by
  obtain ⟨⟨m, T⟩, hm, hp⟩ := List.any_eq_true.1 h
  obtain ⟨hn, hT⟩ := Bool.and_eq_true_iff.1 hp
  exact ⟨T, beq_iff_eq.1 hn ▸ hm, hT⟩

/-- An admissible Telemetry layout has a Float32 field, `COMMAND_SCHEMA` has none (45_concrete_schemas.md R95, R99). -/
theorem schemaOfLayout_ne_commandSchema {l : Layout} (h : l.admissible = true) : schemaOfLayout l ≠ commandSchema := by
  have hb : l.hasField .batteryVoltage .float32 = true := by simp only [Layout.admissible, Bool.and_eq_true] at h; tauto
  intro hl
  have hm : FieldType.float32 ∈ schemaOfLayout l := List.mem_map_of_mem (Layout.mem_of_hasField hb)
  rw [hl] at hm
  exact absurd hm (by decide)

/-- Settles O5: the two cases of `newRecord`. -/
theorem recNewGivesInitialValues : Obligations.RecNewGivesInitialValues := by
  refine fun s => ⟨isOperation_iff.2 rfl, fun hs => ?_, fun hs => ?_, fun hc => ?_, fun _ _ => rfl, fun _ => ⟨rfl, rfl, rfl⟩⟩
  · rw [exec_recNew, show s.schemaOf s.kind = commandSchema from hs, newRecord_command]; rfl
  · rw [exec_recNew, newRecord_of_ne hs]
  · exact schemaOfLayout_ne_commandSchema (Bool.and_eq_true_iff.1 hc).1

/-- Settles O7: the three outcomes of `REC.SET`, and which Record is on loan. -/
theorem recSetWritesOneRegister : Obligations.RecSetWritesOneRegister := by
  refine fun s => ⟨isOperation_iff.2 rfl, fun v hv hl => ?_, fun v hv hl => ?_, fun hi => ?_, ⟨_, _, rfl, ?_, rfl, ?_⟩, fun k x =>
    ⟨s.lent_freshRecord_same k x, fun j hj => s.lent_freshRecord_other x hj⟩⟩
  · obtain ⟨hlt, -⟩ := List.getElem?_eq_some_iff.1 hv
    refine ⟨s.setRecord s.kind ((s.recordOf s.kind).set s.idx (s.vals.get v.type)), by simp [exec, execRecSet, hv, hl], ?_⟩
    rw [State.recordOf_setRecord_same]
    exact ⟨rfl, List.length_set, List.getElem?_set_self hlt, fun j hj => List.getElem?_set_ne hj.symm⟩
  · simp [exec, execRecSet, hv, hl]
  · simp [exec, execRecSet, List.getElem?_eq_none hi]
  · simp [State.lent, U0.start]
  · simp [State.lent, U6.start]

end Sys2Proof.Machine
end

section
/-! The statements about the escape operations' rows, the encodes and the decodes. -/

namespace Sys2Proof.Machine

theorem exec_kissUnesc (s : State) : exec .kissUnesc s = .next { s with raw := unescape s.escr } := rfl

theorem unescape_pair_delim (e : List Byte) : unescape (Config.esc :: Config.tDelim :: e) = Config.delim :: unescape e := if_pos ⟨rfl, rfl⟩

theorem unescape_pair_esc (e : List Byte) : unescape (Config.esc :: Config.tEsc :: e) = Config.esc :: unescape e := by
  rw [unescape, if_neg (by decide), if_pos ⟨rfl, rfl⟩]

/-- A byte that begins no pair is emitted and consumes itself alone. -/
theorem unescape_cons {b : Byte} {e : List Byte} (h : b = Config.esc → e.head? ≠ some Config.tDelim ∧ e.head? ≠ some Config.tEsc) :
    unescape (b :: e) = b :: unescape e := by
  cases e with
  | nil => rfl
  | cons c e =>
    rw [unescape, if_neg fun hb => (h hb.1).1 (congrArg some hb.2), if_neg fun hb => (h hb.1).2 (congrArg some hb.2)]

theorem unescape_cons_of_ne {b : Byte} (h : b ≠ Config.esc) (e : List Byte) : unescape (b :: e) = b :: unescape e :=
  unescape_cons fun hb => absurd hb h

theorem exec_decode_of_framingFails {i : Instr} {s : State} {k : PacketKind} (h : decoderKind i s = some k) (hf : framingFails s.frame) :
    exec i s = .next { s with status := some .badFraming } := by
  rw [exec_of_decoderKind h, decodeAt, frameDecode_of_framingFails _ hf]; rfl

theorem exec_decode_of_length_ne {i : Instr} {s : State} {k : PacketKind} (h : decoderKind i s = some k) (hf : ¬ framingFails s.frame)
    (hl : (regionOf s.frame).length ≠ numBytes (s.schemaOf k) + 2) : exec i s = .next { s with status := some .lengthMismatch } := by
  rw [exec_of_decoderKind h, decodeAt, frameDecode_of_length_ne hf hl]; rfl

/-- `FRM.DEC` of a frame that holds a payload of `sch.N` bytes and two more: the checksum decides. -/
theorem frameDecode_of_region {sch : Schema} {f pay : List Byte} {lo hi : Byte} (hf : ¬ framingFails f) (hr : regionOf f = pay ++ [lo, hi])
    (hp : pay.length = numBytes sch) :
    frameDecode sch f = if ~~~(wordSum pay) = hi ++ lo then .ok (unpackRecord sch pay) else .err .checksumMismatch := by
  have hlen : (regionOf f).length = numBytes sch + 2 := by rw [hr, List.length_append, hp]; rfl
  have htake : (regionOf f).take (numBytes sch) = pay := by rw [hr, ← hp, List.take_left]
  have hck : receivedChecksum (numBytes sch) (regionOf f) = hi ++ lo :=
    receivedChecksum_eq_append (by rw [hr, ← hp]; simp) (by rw [hr, ← hp]; simp)
  rw [frameDecode_of_length_eq hf hlen, htake, hck]

/-- Settles O13: a pair, or a byte that begins none. -/
theorem kissUnescResolvesPairs : Obligations.KissUnescResolvesPairs := fun s =>
  ⟨isOperation_iff.2 rfl, exec_kissUnesc s, rfl, unescape_pair_delim, unescape_pair_esc, fun _ _ => unescape_cons⟩

/-- Settles O14: each row's arm, and a frame whose first or last byte is not `C0` fails the framing test. -/
theorem wireRowsEmitTheirBytes : Obligations.WireRowsEmitTheirBytes := by
  refine fun s b => ⟨rfl, rfl, rfl, rfl, rfl, rfl, rfl, rfl, rfl, rfl, rfl, rfl, rfl, fun i k h hb f hf => exec_decode_of_framingFails h ?_⟩
  have hne : some b ≠ some (0xC0 : Byte) := fun e => hb (Option.some.inj e)
  rcases hf with hf | hf
  · exact .inr (.inr (by rw [hf]; simpa using hne))
  · exact .inr (.inl (by rw [hf]; exact hne))

/-- Settles O16: the stages of `frameEncode`. -/
theorem encodesComposeTheStages : Obligations.EncodesComposeTheStages := by
  refine fun s k => ⟨_, _, _, rfl, rfl, rfl, isOperation_iff.2 rfl, isOperation_iff.2 rfl, isOperation_iff.2 rfl, fun hk => ?_, fun hk => ?_,
    fun hk => ?_⟩
  · subst hk; rfl
  · subst hk; rfl
  · subst hk; rfl

/-- Settles O17: framing, then length, then checksum, each by the outcome of `FRM.DEC` in its case. -/
theorem decodesFollowTheSixSteps : Obligations.DecodesFollowTheSixSteps := by
  refine fun i s k h => ⟨isOperation_iff.2 rfl, isOperation_iff.2 rfl, isOperation_iff.2 rfl, exec_decode_of_framingFails h,
    exec_decode_of_length_ne h, fun pay lo hi hf hr hp hck => ?_, fun pay lo hi hf hr hp hck => ?_⟩
  · rw [exec_of_decoderKind h, decodeAt, frameDecode_of_region hf hr hp, if_neg hck]; rfl
  · rw [exec_of_decoderKind h, decodeAt, frameDecode_of_region hf hr hp, if_pos hck]; rfl

/-- Settles O21: an error writes `status` alone, and neither the frame nor the schema depends on it. -/
theorem failedDecodeChangesOnlyStatus : Obligations.FailedDecodeChangesOnlyStatus := by
  intro i s k h
  refine ⟨_, exec_of_decoderKind h, fun hne => ?_⟩
  cases hr : frameDecode (s.schemaOf k) s.frame with
  | ok x => exact absurd (by rw [decodeAt, hr]; rfl) hne
  | err e =>
    have ht : decodeAt k s = s.raise e := by rw [decodeAt, hr]; rfl
    have again : decoderKind i (s.raise e) = some k := by rw [← h]; cases i <;> rfl
    have same : frameDecode ((s.raise e).schemaOf k) (s.raise e).frame = .err e := by
      rw [State.schemaOf_congr (s.raise_sch e) (s.raise_tlmLayout e), State.raise_frame, hr]
    rw [ht]
    refine ⟨rfl, ?_⟩
    rw [exec_of_decoderKind again, decodeAt, same]; rfl

/-- Settles O22: one decode at the packet kind of each. -/
theorem parsersAreFrmDecAtTheirSchema : Obligations.ParsersAreFrmDecAtTheirSchema := by
  have at_kind : ∀ (k : PacketKind) (s : State), decodeAt k s = { decodeAt k { s with kind := k } with kind := s.kind } := by
    intro k s
    have same : State.schemaOf { s with kind := k } k = s.schemaOf k := State.schemaOf_congr rfl rfl k
    unfold decodeAt
    rw [same]
    cases frameDecode (s.schemaOf k) s.frame <;> cases k <;> rfl
  refine fun s => ⟨⟨_, rfl, ?_⟩, ⟨_, rfl, ?_⟩, rfl, rfl⟩
  · exact congrArg Host.Outcome.next (at_kind .telemetry s)
  · exact congrArg Host.Outcome.next (at_kind .command s)

/-- Settles O40: what a decode delivers is a function of the frame and the schema. -/
theorem decodeDependsOnOperandsAlone : Obligations.DecodeDependsOnOperandsAlone := by
  intro i s s' k h h' hf hs
  refine ⟨_, _, exec_of_decoderKind h, exec_of_decoderKind h', ?_⟩
  unfold decodeAt
  rw [← hf, ← hs]
  cases frameDecode (s.schemaOf k) s.frame with
  | ok x => exact ⟨rfl, fun _ => by rw [State.deliver_ok_recordOf, State.deliver_ok_recordOf]⟩
  | err e => exact ⟨rfl, fun hok => by cases e <;> cases hok⟩

end Sys2Proof.Machine
end

section
/-! SUPPORT. The invariant of the machine as a structure of facts, one per clause of `State.inv`. -/

namespace Sys2Proof.Machine

/-- `State.inv`, clause by clause. -/
structure State.Inv (s : State) : Prop where
  cmdTyped : schemaOfRecord s.cmdRec = s.schemaOf .command
  tlmTyped : schemaOfRecord s.tlmRec = s.schemaOf .telemetry
  u0 : if s.u0.active = true then s.u0.consistent = true else s.u0 = U0.idle
  u1 : if s.u1.active = true then s.u1.consistent = true ∧ schemaOfCall s s.u1.kind s.u1.sch = true else s.u1 = U1.idle
  u2 : s.u2.active = true ∨ s.u2 = U2.idle
  u3 : s.u3.sum.active = true ∨ s.u3 = U3.idle
  u5 : s.u5.active = true ∨ s.u5 = U5.idle
  u6 : if s.u6.active = true then s.u6.consistent = true ∧ s.u6.kind = .telemetry else s.u6 = U6.idle
  u7 : if s.u7.active = true then s.u7.consistent = true ∧ s.u7.kind = .command ∧ s.u7.sch = commandSchema else s.u7 = U7.idle
  loanU0 : s.loanU0 = true → s.u0.active = true ∧ s.u0.record = s.recordOf s.u0.kind
  loanU6 : s.loanU6 = true → s.u6.active = true ∧ s.u6.u0.record = s.recordOf s.u6.kind
  layout : s.tlmLayout.admissible = true
  table : commandTableInjective s.commandTable = true

theorem inv_iff (s : State) : s.inv = true ↔ s.Inv := by
  have loan : ∀ l p : Bool, (!l || p) = true ↔ (l = true → p = true) := by decide
  have call : ∀ a p q : Bool, (if a = true then p else q) = true ↔ if a = true then p = true else q = true := by decide
  simp only [State.inv, State.recordsTyped, State.unitsConsistent, State.loansKept, State.configAdmissible, Bool.and_eq_true,
    Bool.or_eq_true, beq_iff_eq, loan, call, and_assoc]
  constructor
  · rintro ⟨a, b, c, d, e, f, g, h, i, j, k, l, m⟩; exact ⟨a, b, c, d, e, f, g, h, i, j, k, l, m⟩
  · rintro ⟨a, b, c, d, e, f, g, h, i, j, k, l, m⟩; exact ⟨a, b, c, d, e, f, g, h, i, j, k, l, m⟩

end Sys2Proof.Machine
end

section
/-! SUPPORT. The named fields of the Telemetry Record and the command table (45_concrete_schemas.md R96, R99): a name is found once. -/

namespace Sys2Proof.Machine

/-- In a list that gives no name twice, a name has one entry. -/
theorem entry_unique {α β : Type} {l : List (α × β)} (h : (l.map Prod.fst).Nodup) {a : α} {b c : β} (hb : (a, b) ∈ l) (hc : (a, c) ∈ l) : b = c :=
  congrArg Prod.snd (List.inj_on_of_nodup_map h hb hc rfl)

/-- In a layout that gives no name twice, the Record has a register of the type given with the name. -/
theorem State.telemetryField_of_mem {s : State} (hn : (s.tlmLayout.map Prod.fst).Nodup) (ht : schemaOfRecord s.tlmRec = s.schemaOf .telemetry)
    {n : FieldName} {T : FieldType} (hm : (n, T) ∈ s.tlmLayout) : ∃ v, s.telemetryField n = some v ∧ v.type = T := by
  cases hi : fieldIndex n s.tlmLayout with
  | none => exact absurd hm (fieldIndex_none hi T)
  | some i =>
    obtain ⟨U, hU⟩ := fieldIndex_name hi
    obtain rfl := entry_unique hn (List.mem_of_getElem? hU) hm
    have typed : (s.tlmRec.map FieldValue.type)[i]? = some U := by
      rw [show s.tlmRec.map FieldValue.type = s.tlmLayout.map Prod.snd from ht, List.getElem?_map, hU]; rfl
    rw [List.getElem?_map, Option.map_eq_some_iff] at typed
    obtain ⟨v, hv, hT⟩ := typed
    exact ⟨v, by simp [State.telemetryField, hi, hv], hT⟩

/-- The register of an integer type stands for an integer. -/
theorem FieldValue.int?_of_isInteger {v : FieldValue} (h : v.type.isInteger = true) : ∃ z, v.int? = some z := by
  cases v with
  | bool | float32 => cases h
  | _ => exact ⟨_, rfl⟩

/-- The integer fields that the numeric accessors read are in every admissible layout (45_concrete_schemas.md R99 (c), (e)). -/
theorem Layout.integerFields {l : Layout} (h : l.admissible = true) (g : GpsFix) :
    ∀ n ∈ [FieldName.pressureRaw, .resetTimeRaw, .dataAgeRaw, .gpsAltitudeRaw g, .gpsSpeedRaw g, .gpsLatitudeRaw g, .gpsLongitudeRaw g],
      ∃ T, (n, T) ∈ l ∧ T.isInteger = true := by
  have hg : l.gpsAdmissible g = true := by
    simp only [Layout.admissible, Bool.and_eq_true] at h
    cases g <;> tauto
  simp only [Layout.gpsAdmissible, Bool.and_eq_true] at hg
  simp only [Layout.admissible, Bool.and_eq_true] at h
  have some : ∀ {n}, l.hasSome n FieldType.isInteger = true → ∃ T, (n, T) ∈ l ∧ T.isInteger = true := Layout.mem_of_hasSome
  have int32 : ∀ {n}, l.hasField n .int32 = true → ∃ T, (n, T) ∈ l ∧ T.isInteger = true := fun hf => ⟨_, Layout.mem_of_hasField hf, rfl⟩
  simp only [List.forall_mem_cons]
  exact ⟨some (by tauto), some (by tauto), some (by tauto), int32 (by tauto), some (by tauto), int32 (by tauto), int32 (by tauto),
    List.forall_mem_nil _⟩

/-- Every admissible layout has a relay-state field that is no Bool (45_concrete_schemas.md R99 (f)). -/
theorem Layout.relayField {l : Layout} (h : l.admissible = true) : ∃ T, (FieldName.relayStates, T) ∈ l ∧ T ≠ .bool := by
  simp only [Layout.admissible, Bool.and_eq_true] at h
  obtain ⟨T, hm, hT⟩ := Layout.mem_of_hasSome (l := l) (n := .relayStates) (p := fun T => T != .bool) (by tauto)
  exact ⟨T, hm, by simpa using hT⟩

theorem Layout.names_nodup {l : Layout} (h : l.admissible = true) : (l.map Prod.fst).Nodup := by
  simp only [Layout.admissible, Bool.and_eq_true, decide_eq_true_eq] at h
  exact h.2

theorem State.Inv.telemetryField {s : State} (h : s.Inv) {n : FieldName} {T : FieldType} (hm : (n, T) ∈ s.tlmLayout) :
    ∃ v, s.telemetryField n = some v ∧ v.type = T :=
  State.telemetryField_of_mem (Layout.names_nodup h.layout) h.tlmTyped hm

theorem readInteger_of_int {s : State} {n : FieldName} {v : FieldValue} {z : Int} (c : Config.Conversion) (hv : s.telemetryField n = some v)
    (hz : v.int? = some z) : readInteger n c s = .next { s with reading := exactReading c z, evaluated := Config.accessorNumerics c z } := by
  simp [readInteger, hv, hz]

/-- Under the invariant the named integer fields can be read. -/
theorem State.Inv.readInteger {s : State} (h : s.Inv) (g : GpsFix) {n : FieldName} (c : Config.Conversion)
    (hn : n ∈ [FieldName.pressureRaw, .resetTimeRaw, .dataAgeRaw, .gpsAltitudeRaw g, .gpsSpeedRaw g, .gpsLatitudeRaw g, .gpsLongitudeRaw g]) :
    ∃ q r, Machine.readInteger n c s = .next { s with reading := q, evaluated := r } := by
  obtain ⟨T, hm, hT⟩ := Layout.integerFields h.layout g n hn
  obtain ⟨v, hv, rfl⟩ := h.telemetryField hm
  obtain ⟨z, hz⟩ := FieldValue.int?_of_isInteger hT
  exact ⟨_, _, readInteger_of_int c hv hz⟩

theorem extractLsb'_one {w : Nat} (x : BitVec w) (k : Nat) : x.extractLsb' k 1 = BitVec.ofBool (x.getLsbD k) := by
  ext i hi
  obtain rfl : i = 0 := by omega
  simp

theorem exec_accRelay_of_field {s : State} {v : FieldValue} (hv : s.telemetryField .relayStates = some v) (ht : v.type ≠ .bool)
    (hk : s.relay ≤ 3) :
    exec .accRelay s = .next { s with vals := { s.vals with bool := BitVec.ofBool ((fieldBits v).getLsbD s.relay) } } := by
  rcases execAccRelay_cases s with ⟨h, -⟩ | ⟨-, h, -⟩ | ⟨-, w, h, hb, -⟩ | ⟨-, w, h, -, e⟩
  · omega
  · cases h.symm.trans hv
  · cases h.symm.trans hv; exact absurd hb ht
  · cases h.symm.trans hv
    exact e.trans (by rw [extractLsb'_one]; rfl)

theorem lookupCommand_of_mem {n : CommandName} {t : CommandTable} {i : Byte} (ht : (t.map Prod.fst).Nodup) (hm : (n, i) ∈ t) :
    lookupCommand n t = some i := by
  have found : ∀ {t : CommandTable}, (n, i) ∈ t → lookupCommand n t ≠ none := by
    intro t
    induction t with
    | nil => simp
    | cons a t ih =>
      intro hm
      rw [lookupCommand]
      split_ifs with ha
      · simp
      · exact ih ((List.mem_cons.1 hm).resolve_left fun e => ha (congrArg Prod.fst e).symm)
  obtain ⟨j, hj⟩ := Option.ne_none_iff_exists'.1 (found hm)
  rw [hj, entry_unique ht (lookupCommand_mem hj) hm]

theorem exec_cmdLookup_of_some {s : State} {i : Byte} (h : lookupCommand s.name s.commandTable = some i) :
    exec .cmdLookup s = .next (s.setValue (.byte i)) := by
  simp [exec, execCmdLookup, h]

theorem exec_cmdLookup_of_none {s : State} (h : lookupCommand s.name s.commandTable = none) :
    exec .cmdLookup s = .refused .unknownCommand := by
  simp [exec, execCmdLookup, h]

end Sys2Proof.Machine
end

section
/-! SUPPORT. The numeric codes and tags, and what the caller hands over by name or tag (30_encoding.md section 5, 60_exceptions.md section 3). -/

namespace Sys2Proof.Machine

theorem Status.code_injective {a b : Status} (h : a.code = b.code) : a = b := by
  cases a <;> cases b <;> first | rfl | exact absurd h (by decide)

theorem Status.code_surjective (c : BitVec 2) : ∃ st : Status, st.code = c := by
  have four : ∀ c : BitVec 2, c = Status.ok.code ∨ c = Status.badFraming.code ∨ c = Status.lengthMismatch.code ∨ c = Status.checksumMismatch.code := by
    decide
  rcases four c with h | h | h | h <;> exact ⟨_, h.symm⟩

theorem tag_of_fieldTypeOfTag {g : BitVec 3} {T : FieldType} (h : fieldTypeOfTag g = some T) : T.tag = g := by
  unfold fieldTypeOfTag at h
  split at h
  all_goals cases h
  all_goals
    next hg => exact (BitVec.eq_of_toNat_eq hg).symm

/-- The index of a name is that of its first occurrence among the names. -/
theorem fieldIndex_eq_idxOf? (n : FieldName) (l : Layout) : fieldIndex n l = (l.map Prod.fst).idxOf? n := by
  induction l with
  | nil => rfl
  | cons a l ih => simp [fieldIndex, List.idxOf?_cons, ih]

theorem schemaOfTags_map_tag (sch : Schema) : schemaOfTags (sch.map FieldType.tag) = some sch := by
  induction sch with
  | nil => rfl
  | cons T sch ih => simp [schemaOfTags, ih]

theorem schemaOfTags_of_mem_seven {tags : List (BitVec 3)} (h : 7 ∈ tags) : schemaOfTags tags = none := by
  induction tags with
  | nil => simp at h
  | cons t ts ih =>
    rcases List.mem_cons.1 h with rfl | h
    · rfl
    · rw [schemaOfTags, ih h]
      cases fieldTypeOfTag t <;> rfl

end Sys2Proof.Machine
end

section
/-! The statements about the accessors, the command table and the numeric codes. -/

namespace Sys2Proof.Machine

/-- Settles O24: an admissible layout has the field each accessor reads, and a typed Record the register. -/
theorem accessorsCompleteOnTelemetryRecords : Obligations.AccessorsCompleteOnTelemetryRecords := by
  intro s i hinv hi
  have h := (inv_iff s).1 hinv
  have numeric : ∀ {r : Result}, (∃ p q, r = .next { s with reading := p, evaluated := q }) →
      ∃ t, r = .next t ∧ t = { s with reading := t.reading, evaluated := t.evaluated, vals := { s.vals with bool := t.vals.bool } } :=
    fun ⟨_, _, e⟩ => ⟨_, e, rfl⟩
  rcases hi with hi | ⟨rfl, hk⟩
  · simp only [List.mem_cons, List.not_mem_nil, or_false] at hi
    rcases hi with rfl | rfl | rfl | rfl | rfl | rfl | rfl
    all_goals exact numeric (h.readInteger s.fix _ (by simp))
  · obtain ⟨T, hm, hT⟩ := Layout.relayField h.layout
    obtain ⟨v, hv, rfl⟩ := h.telemetryField hm
    exact ⟨_, exec_accRelay_of_field hv hT hk, rfl⟩

/-- Settles O23: the two conversions, as the spec prints their factors and divisors. -/
theorem accessorsConvertRawIntegers : Obligations.AccessorsConvertRawIntegers := by
  have times : ∀ {z : Int} {a b : Rat}, exactReading (.times (a / b)) z = z * a / b := (mul_div_assoc _ _ _).symm
  refine fun s => ⟨⟨isOperation_iff.2 rfl, isOperation_iff.2 rfl, isOperation_iff.2 rfl, isOperation_iff.2 rfl, isOperation_iff.2 rfl,
    isOperation_iff.2 rfl, isOperation_iff.2 rfl⟩, fun _ _ _ => ⟨rfl, rfl, rfl, rfl, rfl⟩, fun v z hv hz => ?_, fun v hv => ?_,
    fun v z hv hz => ?_, fun v hv => readInteger_of_int _ hv rfl, fun v hv => readInteger_of_int _ hv rfl,
    fun v z hv hz => readInteger_of_int _ hv hz, fun v z hv hz => readInteger_of_int _ hv hz⟩
  · rw [← times]; exact readInteger_of_int _ hv hz
  · rw [← times]; exact readInteger_of_int _ hv rfl
  · rw [← times]; exact readInteger_of_int _ hv hz

/-- Settles O26: the bit of the relay-state register, which for a Byte is the bit of the byte. -/
theorem relayIsBitOfMask : Obligations.RelayIsBitOfMask := by
  refine fun s => ⟨isOperation_iff.2 rfl, fun v hv hk => ?_, fun v hv ht hk => exec_accRelay_of_field hv ht hk, fun hk => ?_⟩
  · have low : (fieldBits (.byte v)).getLsbD s.relay = v.getLsbD s.relay := by
      rw [fieldBits, BitVec.getLsbD_setWidth, decide_eq_true (by omega : s.relay < 32), Bool.true_and]
    rw [exec_accRelay_of_field hv (fun h => nomatch h) hk, low]
  · exact if_neg (Nat.not_le.2 hk)

/-- Settles O27: a name has one entry in an injective table, and the lookup finds it. -/
theorem cmdLookupReadsTheTable : Obligations.CmdLookupReadsTheTable := by
  refine fun s => ⟨isOperation_iff.2 rfl, fun i ht hm => ?_, fun hm => ?_⟩
  · have names : (s.commandTable.map Prod.fst).Nodup := of_decide_eq_true (Bool.and_eq_true_iff.1 ht).1
    exact exec_cmdLookup_of_some (lookupCommand_of_mem names hm)
  · exact exec_cmdLookup_of_none (Option.eq_none_iff_forall_ne_some.2 fun i hi => hm i (lookupCommand_mem hi))

/-- Settles O25: the codes and tags as listed, each of one outcome or type. -/
theorem numericCodesAreAsListed : Obligations.NumericCodesAreAsListed := by
  refine ⟨rfl, rfl, rfl, fun c => ?_, fun T g => ⟨tag_of_fieldTypeOfTag, fun h => h ▸ fieldTypeOfTag_tag T⟩, rfl⟩
  obtain ⟨st, rfl⟩ := Status.code_surjective c
  exact ⟨st, rfl, fun _ h => Status.code_injective h⟩

end Sys2Proof.Machine
end

section
/-! The statements about reset and about what the caller hands over. -/

namespace Sys2Proof.Machine

/-- Settles O59: each hand-over's test. -/
theorem handOversAreChecked : Obligations.HandOversAreChecked := by
  refine fun s => ⟨fun x hx => if_pos hx, fun x hx => if_neg hx, fun sch => ?_, fun tags ht => ?_, fun n i hi => ?_, fun n hn => ?_⟩
  · simp [interact, handSchema, schemaOfTags_map_tag]
  · simp [interact, handSchema, schemaOfTags_of_mem_seven ht]
  · rw [← fieldIndex_eq_idxOf?] at hi
    simp [interact, handField, hi]
  · rw [← List.idxOf?_eq_none_iff, ← fieldIndex_eq_idxOf?] at hn
    simp [interact, handField, hn]

/-- Settles O33: the check of the reset state evaluates to true. -/
theorem resetMeetsInvariant : Obligations.ResetMeetsInvariant := by
  unfold Obligations.ResetMeetsInvariant
  decide

/-- Settles O58: each field of the reset state. -/
theorem resetStateIsAsSpecified : Obligations.ResetStateIsAsSpecified :=
  ⟨rfl, rfl, rfl, rfl, rfl, rfl, rfl, rfl, rfl, rfl, rfl, rfl, rfl, rfl, rfl, rfl, fun _ => rfl, rfl⟩

end Sys2Proof.Machine
end

section
/-! SUPPORT. The escape codec on whole regions (42_escape.md R83): escaped bytes in front of a region, and the rows of 42_escape.md R80, R81 one by one. -/

namespace Sys2Proof.Machine

/-- The escaped bytes of one byte unescape to it, whatever follows. -/
theorem unescape_escapeByte_append (b : Byte) (e : List Byte) : unescape (escapeByte b ++ e) = b :: unescape e := by
  rcases escapeByte_cases b with ⟨rfl, h⟩ | ⟨rfl, h⟩ | ⟨-, he, h⟩
  · rw [h]; exact unescape_pair_delim e
  · rw [h]; exact unescape_pair_esc e
  · rw [h]; exact unescape_cons_of_ne he e

theorem unescape_escape (s : List Byte) : unescape (escape s) = s := by
  induction s with
  | nil => rfl
  | cons b s ih => rw [escape, unescape_escapeByte_append, ih]

theorem escape_injective {a b : List Byte} (h : escape a = escape b) : a = b := by
  rw [← unescape_escape a, h, unescape_escape]

theorem delim_not_mem_escapeByte (b : Byte) : Config.delim ∉ escapeByte b := by
  rcases escapeByte_cases b with ⟨-, h⟩ | ⟨-, h⟩ | ⟨hd, -, h⟩
  · rw [h]; decide
  · rw [h]; decide
  · rw [h]; simpa using Ne.symm hd

theorem delim_not_mem_escape (s : List Byte) : Config.delim ∉ escape s := by
  rw [escape_eq_flatMap, List.mem_flatMap]
  rintro ⟨b, -, hb⟩
  exact delim_not_mem_escapeByte b hb

/-- A byte that is not reserved stands for itself in an escaped region. -/
theorem properlyEscaped_cons {b : Byte} (hd : b ≠ Config.delim) (he : b ≠ Config.esc) (e : List Byte) :
    properlyEscaped (b :: e) = properlyEscaped e := by
  cases e with
  | nil => exact Bool.and_eq_true_iff.2 ⟨bne_iff_ne.2 hd, bne_iff_ne.2 he⟩
  | cons c e => exact (if_neg he).trans (by rw [bne_iff_ne.2 hd, Bool.true_and])

theorem properlyEscaped_escapeByte_append (b : Byte) (e : List Byte) : properlyEscaped (escapeByte b ++ e) = properlyEscaped e := by
  rcases escapeByte_cases b with ⟨-, h⟩ | ⟨-, h⟩ | ⟨hd, he, h⟩
  · rw [h]; rfl
  · rw [h]; rfl
  · rw [h]; exact properlyEscaped_cons hd he e

theorem properlyEscaped_escape (s : List Byte) : properlyEscaped (escape s) = true := by
  induction s with
  | nil => rfl
  | cons b s ih => rw [escape, properlyEscaped_escapeByte_append, ih]

/-- A properly escaped region is the escape of what it unescapes to. -/
theorem escape_unescape {e : List Byte} (h : properlyEscaped e = true) : escape (unescape e) = e := by
  have literal : ∀ {b : Byte}, b ≠ Config.delim → b ≠ Config.esc → escapeByte b = [b] := fun hd he => (if_neg hd).trans (if_neg he)
  induction e using properlyEscaped.induct with
  | case1 => rfl
  | case2 b =>
    obtain ⟨hd, he⟩ := Bool.and_eq_true_iff.1 h
    exact congrArg (· ++ []) (literal (bne_iff_ne.1 hd) (bne_iff_ne.1 he))
  | case3 c e ih =>
    rw [properlyEscaped, if_pos rfl, Bool.and_eq_true_iff, Bool.or_eq_true_iff, beq_iff_eq, beq_iff_eq] at h
    obtain ⟨rfl | rfl, htail⟩ := h
    · rw [unescape_pair_delim, escape, ih htail]; rfl
    · rw [unescape_pair_esc, escape, ih htail]; rfl
  | case4 b c e hb ih =>
    rw [properlyEscaped, if_neg hb, Bool.and_eq_true_iff] at h
    obtain ⟨hd, htail⟩ := h
    rw [unescape_cons_of_ne hb, escape, ih htail, literal (bne_iff_ne.1 hd) hb]; rfl

/-- The `WIRE8` row of a byte appends its escaped bytes. -/
theorem exec_decodeWire8 (b : Byte) (s : State) : exec (decodeWire8 b) s = .next { s with escr := s.escr ++ escapeByte b } := by
  unfold decodeWire8 escapeByte
  split_ifs <;> rfl

/-- The `WIRE16` row at the front of a region appends the first byte of its unescaped region, and leaves the bytes of the others. -/
theorem exec_decodeWire16 (b : Byte) (bs : List Byte) (s : State) :
    ∃ c, exec (decodeWire16 b bs.head?) s = .next { s with raw := s.raw ++ [c] } ∧
      unescape (b :: bs) = c :: unescape ((b :: bs).drop (wire16Length (decodeWire16 b bs.head?))) := by
  unfold decodeWire16
  split_ifs with hb hd he
  · obtain ⟨e, rfl⟩ := List.head?_eq_some_iff.1 hd
    subst hb; exact ⟨_, rfl, unescape_pair_delim e⟩
  · obtain ⟨e, rfl⟩ := List.head?_eq_some_iff.1 he
    subst hb; exact ⟨_, rfl, unescape_pair_esc e⟩
  · subst hb; exact ⟨_, rfl, unescape_cons fun _ => ⟨hd, he⟩⟩
  · exact ⟨_, rfl, unescape_cons_of_ne hb bs⟩

/-- A fetch of bytes that decode runs the instruction and goes on with what is left. -/
theorem stepTimes_fetch {f : Format} {bytes left : List Byte} {i : Instr} {rest : List Interaction} {s t : State} (k : Nat)
    (hp : s.pending = .fetch f bytes :: rest) (hd : decode f bytes = .instr i left)
    (he : exec i { s with pending := continueFetch f left rest } = .next t) : stepTimes (k + 1) s = stepTimes k t :=
  stepTimes_next <| by rw [step_interact hp, interact, hd]; exact he

/-- The `WIRE8` rows of a region, one step a byte. -/
theorem stepTimes_wire8 (s : State) (bs out : List Byte) :
    stepTimes bs.length { s with escr := out, pending := continueFetch .wire8 bs [] } =
      .next { s with escr := out ++ escape bs, pending := [] } := by
  induction bs generalizing out with
  | nil => rw [escape, List.append_nil]; rfl
  | cons b bs ih =>
    rw [escape, ← List.append_assoc, ← ih (out ++ escapeByte b)]
    exact stepTimes_fetch _ rfl rfl (exec_decodeWire8 b _)

/-- The `WIRE16` rows of a region, at most one step a byte. -/
theorem stepTimes_wire16 (s : State) (n : Nat) (bs out : List Byte) (hn : bs.length ≤ n) :
    ∃ k ≤ bs.length, stepTimes k { s with raw := out, pending := continueFetch .wire16 bs [] } =
      .next { s with raw := out ++ unescape bs, pending := [] } := by
  induction n generalizing bs out with
  | zero =>
    obtain rfl := List.length_eq_zero_iff.1 (Nat.le_zero.1 hn)
    exact ⟨0, le_rfl, by rw [unescape, List.append_nil]; rfl⟩
  | succ n ih =>
    cases bs with
    | nil => exact ih [] out (Nat.zero_le n)
    | cons b bs =>
      have shorter : ((b :: bs).drop (wire16Length (decodeWire16 b bs.head?))).length ≤ bs.length := by
        have pos : 1 ≤ wire16Length (decodeWire16 b bs.head?) := by unfold wire16Length; split <;> decide
        rw [List.length_drop, List.length_cons]; omega
      obtain ⟨c, he, hu⟩ := exec_decodeWire16 b bs { s with
        raw := out, pending := continueFetch .wire16 ((b :: bs).drop (wire16Length (decodeWire16 b bs.head?))) [] }
      obtain ⟨k, hk, hrun⟩ := ih _ (out ++ [c]) (shorter.trans (Nat.le_of_succ_le_succ hn))
      refine ⟨k + 1, Nat.succ_le_succ (hk.trans shorter), ?_⟩
      rw [hu, List.append_cons, ← hrun]
      exact stepTimes_fetch k rfl rfl he

/-- A region of no bytes is fetched in one step that changes nothing. -/
theorem runsTo_fetch_nil (s : State) (f : Format) : runsTo s 1 [.fetch f []] { s with pending := [] } := rfl

end Sys2Proof.Machine
end

section
/-! The statements about the escape codec and its rows. -/

namespace Sys2Proof.Machine

/-- Settles O43: unescaping is a left inverse of escaping. -/
theorem unescapeInvertsEscape : Obligations.UnescapeInvertsEscape := by
  refine ⟨fun s => ⟨_, exec_kissEsc s, ?_⟩, fun s s' t t' h h' heq => ?_⟩
  · rw [exec_kissUnesc, unescape_escape]
  · cases h; cases h'; exact escape_injective heq

/-- Settles O44: an escape is properly escaped, and a properly escaped region is the escape of its unescaped one. -/
theorem escapedRegionsAreExactlyTheImage : Obligations.EscapedRegionsAreExactlyTheImage := by
  refine ⟨fun s t h => ?_, fun s => ⟨_, _, exec_kissUnesc s, exec_kissEsc _, fun h => ?_, escape_unescape⟩⟩
  · cases h; exact ⟨delim_not_mem_escape s.raw, properlyEscaped_escape s.raw⟩
  · exact h ▸ properlyEscaped_escape (unescape s.escr)

/-- Settles O15: the rows of a region, from an empty output; a region of no bytes takes the one step of its fetch. -/
theorem wireRowsRealiseEscapeCodec : Obligations.WireRowsRealiseEscapeCodec := by
  intro s bs
  cases bs with
  | nil => exact ⟨⟨1, le_rfl, runsTo_fetch_nil _ _⟩, 1, le_rfl, runsTo_fetch_nil _ _⟩
  | cons b bs =>
    obtain ⟨k, hk, h⟩ := stepTimes_wire16 s _ (b :: bs) [] le_rfl
    exact ⟨⟨_, Nat.le_succ _, stepTimes_wire8 s (b :: bs) []⟩, k, Nat.le_succ_of_le hk, h⟩

end Sys2Proof.Machine
end

section
/-! SUPPORT. The word sum under a change (43_checksum.md R89): one byte, and two words at aligned places. -/

namespace Sys2Proof.Machine

theorem append_byte_inj {hi lo hi' lo' : Byte} : hi ++ lo = hi' ++ lo' ↔ hi = hi' ∧ lo = lo' := by
  refine ⟨fun h => ?_, fun ⟨h, h'⟩ => by rw [h, h']⟩
  have bytes := congrArg leBytes16 h
  rw [leBytes16_append, leBytes16_append] at bytes
  injection bytes with hlo htail
  injection htail with hhi
  exact ⟨hhi, hlo⟩

/-- Another byte in one place gives another word sum. -/
theorem wordSum_set_ne {p : List Byte} {j : Nat} {b b' : Byte} (hj : p[j]? = some b) (hb : b' ≠ b) : wordSum (p.set j b') ≠ wordSum p := by
  induction p using wordSum.induct generalizing j with
  | case1 => cases hj
  | case2 lo =>
    obtain ⟨h0, rfl⟩ := List.getElem?_eq_some_iff.1 hj
    obtain rfl : j = 0 := Nat.lt_one_iff.1 h0
    intro h
    exact hb (by simpa [wordSum] using congrArg (BitVec.setWidth 8) h)
  | case3 lo hi p ih =>
    match j, hj with
    | 0, hj =>
      obtain rfl : lo = b := Option.some.inj hj
      exact fun h => hb (append_byte_inj.1 ((BitVec.add_left_inj _).1 h)).2
    | 1, hj =>
      obtain rfl : hi = b := Option.some.inj hj
      exact fun h => hb (append_byte_inj.1 ((BitVec.add_left_inj _).1 h)).1
    | j + 2, hj => exact fun h => ih hj ((BitVec.add_right_inj _).1 h)

/-- Two aligned words add their sum to that of the rest. -/
theorem wordSum_two_words {p q : List Byte} (hp : p.length % 2 = 0) (hq : q.length % 2 = 0) (r : List Byte) (a b c d : Byte) :
    wordSum (p ++ [a, b] ++ q ++ [c, d] ++ r) = wordSum p + wordSum q + wordSum r + ((b ++ a) + (d ++ c)) := by
  simp only [List.append_assoc]
  rw [wordSum_append hp, List.cons_append, List.cons_append, List.nil_append, wordSum, wordSum_append hq, List.cons_append, List.cons_append,
    List.nil_append, wordSum]
  ring

/-- Two aligned words exchanged for two of the same sum are not noticed. -/
theorem checksum_two_words {p q : List Byte} (hp : p.length % 2 = 0) (hq : q.length % 2 = 0) (r : List Byte) {a b c d a' b' c' d' : Byte}
    (h : (b ++ a) + (d ++ c) = (b' ++ a') + (d' ++ c')) :
    checksum (p ++ [a, b] ++ q ++ [c, d] ++ r) = checksum (p ++ [a', b'] ++ q ++ [c', d'] ++ r) := by
  rw [checksum, checksum, wordSum_two_words hp hq, wordSum_two_words hp hq, h]

/-- Bit 15 of a word flipped adds `0x8000` to it. -/
theorem flip_top_bit (a b : Byte) : (b ^^^ 0x80) ++ a = (b ++ a) + (0x8000 : Half) := by
  have top : ∀ b : Byte, (b ^^^ 0x80).toNat = (b.toNat + 128) % 256 := by decide
  apply BitVec.eq_of_toNat_eq
  rw [toNat_append_byte, top, BitVec.toNat_add, toNat_append_byte, show (0x8000 : Half).toNat = 32768 from rfl]
  have := a.isLt
  omega

end Sys2Proof.Machine
end

section
/-! The statements about what the checksum detects and what it misses. -/

namespace Sys2Proof.Machine

/-- Settles O45: the complement is injective, and another byte gives another word sum. -/
theorem checksumDetectsEveryByteChange : Obligations.ChecksumDetectsEveryByteChange := by
  refine fun s => ⟨_, exec_csumGen s, ?_, fun j b b' hj hb => ?_⟩
  · rw [exec_csumVfy, if_pos rfl]
  · rw [exec_csumVfy, if_neg fun h => wordSum_set_ne hj hb (BitVec.not_inj.1 h)]

/-- Settles O46: each change keeps the sum of the two words. -/
theorem checksumMissesCompensatingChanges : Obligations.ChecksumMissesCompensatingChanges := by
  refine fun p q r a b c d hp hq => ⟨checksum_two_words hp hq r (add_comm _ _), checksum_two_words hp hq r ?_,
    fun n ha hc => checksum_two_words hp hq r ?_⟩
  · have twice : (0x8000 : Half) + 0x8000 = 0 := by decide
    rw [flip_top_bit, flip_top_bit, add_add_add_comm, twice, add_zero]
  · apply BitVec.eq_of_toNat_eq
    simp only [BitVec.toNat_add, toNat_append_byte, BitVec.toNat_sub]
    have := c.isLt
    omega

end Sys2Proof.Machine
end

section
/-! SUPPORT. Frames (44_framing.md R90, R91): the bytes between link type and trailer are the region, so a produced frame decodes to its Record. -/

namespace Sys2Proof.Machine

theorem frameEncode_eq (x : Record) :
    frameEncode x = Config.delim :: Config.linkType :: (escape (unescapedRegion (packRecord x)) ++ [Config.delim]) := rfl

/-- The framing test looks at the first and the last byte alone. -/
theorem framingFails_iff (a l z : Byte) (e : List Byte) : framingFails (a :: l :: (e ++ [z])) ↔ a ≠ Config.delim ∨ z ≠ Config.delim := by
  have last : (a :: l :: (e ++ [z]))[(a :: l :: (e ++ [z])).length - 1]? = some z := by simp
  rw [framingFails, last]
  simp

/-- The region of a candidate frame is what its middle unescapes to. -/
theorem regionOf_frame (a l z : Byte) (e : List Byte) : regionOf (a :: l :: (e ++ [z])) = unescape e := by
  simp [regionOf, slice]

theorem unescapedRegion_eq (pay : List Byte) :
    unescapedRegion pay = pay ++ [(checksum pay).extractLsb' 0 8, (checksum pay).extractLsb' 8 8] := rfl

/-- A frame with the link type open whose middle is an escaped region decodes to the Record of the region. -/
theorem frameDecode_of_escaped (x : Record) (l : Byte) :
    frameDecode (schemaOfRecord x) (Config.delim :: l :: (escape (unescapedRegion (packRecord x)) ++ [Config.delim])) = .ok x := by
  have framed : ¬ framingFails (Config.delim :: l :: (escape (unescapedRegion (packRecord x)) ++ [Config.delim])) := by
    rw [framingFails_iff]; simp
  have region : regionOf (Config.delim :: l :: (escape (unescapedRegion (packRecord x)) ++ [Config.delim])) =
      packRecord x ++ [(checksum (packRecord x)).extractLsb' 0 8, (checksum (packRecord x)).extractLsb' 8 8] := by
    rw [regionOf_frame, unescape_escape, unescapedRegion_eq]
  have sum : ~~~(wordSum (packRecord x)) = (checksum (packRecord x)).extractLsb' 8 8 ++ (checksum (packRecord x)).extractLsb' 0 8 := by
    rw [← checksum_eq_not]; exact (append_leBytes16 _).symm
  rw [frameDecode_of_region framed region (packRecord_length x), if_pos sum, unpackRecord_packRecord]

theorem frameDecode_frameEncode (x : Record) : frameDecode (schemaOfRecord x) (frameEncode x) = .ok x := frameDecode_of_escaped x _

/-- Two Records of one schema with the same frame are the same. -/
theorem frameEncode_injective {x y : Record} (hs : schemaOfRecord y = schemaOfRecord x) (hf : frameEncode y = frameEncode x) : y = x := by
  have hx := frameDecode_frameEncode x
  rw [← hs, ← hf, frameDecode_frameEncode y] at hx
  exact FrameResult.ok.inj hx

/-- A produced frame has its two delimiters and no other. -/
theorem count_delim_frameEncode (x : Record) : (frameEncode x).count Config.delim = 2 := by
  have inside : (escape (unescapedRegion (packRecord x))).count Config.delim = 0 := List.count_eq_zero.2 (delim_not_mem_escape _)
  rw [frameEncode_eq, List.count_cons_self, List.count_cons_of_ne (by decide), List.count_append, inside, List.count_singleton_self]

theorem frameEncode_length (x : Record) : (frameEncode x).length = (escape (unescapedRegion (packRecord x))).length + 3 := by
  simp [frameEncode_eq]

theorem exec_frmEnc (s : State) : exec .frmEnc s = .next { s with frame := frameEncode (s.recordOf s.kind) } := rfl

/-- `FRM.DEC` of a frame with a known outcome. -/
theorem exec_frmDec_of_outcome {s : State} {r : FrameResult} (h : frameDecode (s.schemaOf s.kind) s.frame = r) :
    exec .frmDec s = .next (s.deliver s.kind r) := by
  rw [← h]; rfl

end Sys2Proof.Machine
end

section
/-! The statements about produced frames. -/

namespace Sys2Proof.Machine

/-- Settles O47: each pair encodes and decodes at one packet kind. -/
theorem frameRoundTrip : Obligations.FrameRoundTrip := by
  intro s k enc dec hm hs
  have henc : exec enc s = .next (encodeAt k s) := by
    simp only [List.mem_cons, Prod.mk.injEq, List.not_mem_nil, or_false] at hm
    rcases hm with ⟨rfl, -, rfl⟩ | ⟨rfl, -, rfl⟩ | ⟨rfl, -, rfl⟩ <;> rfl
  have hdec : exec dec (encodeAt k s) = .next (decodeAt k (encodeAt k s)) := by
    simp only [List.mem_cons, Prod.mk.injEq, List.not_mem_nil, or_false] at hm
    rcases hm with ⟨-, rfl, rfl⟩ | ⟨-, rfl, rfl⟩ | ⟨-, rfl, rfl⟩ <;> rfl
  have same : (encodeAt k s).schemaOf k = s.schemaOf k := State.schemaOf_congr rfl rfl k
  have record : (encodeAt k s).recordOf k = s.recordOf k := by cases k <;> rfl
  have outcome : frameDecode ((encodeAt k s).schemaOf k) (encodeAt k s).frame = .ok ((encodeAt k s).recordOf k) := by
    rw [same, ← hs, record]; exact frameDecode_frameEncode _
  refine ⟨_, henc, ?_⟩
  rw [hdec, decodeAt, outcome]; rfl

/-- Settles O48: no delimiter inside, the bounds of the escaped region, and the decode as a left inverse. -/
theorem framesAreDelimitedBoundedInjective : Obligations.FramesAreDelimitedBoundedInjective := by
  refine fun s => ⟨_, exec_frmEnc s, count_delim_frameEncode _, rfl, ?_, ?_, ?_, fun s' hs' h => ?_⟩
  · rw [frameEncode, List.getLast?_append]; rfl
  all_goals
    have bounds := escape_length_bounds (unescapedRegion (packRecord (s.recordOf s.kind)))
    rw [unescapedRegion_length, packRecord_length] at bounds
  · rw [frameEncode_length]; omega
  · rw [frameEncode_length]; omega
  · rw [exec_frmEnc] at h
    exact frameEncode_injective hs' (congrArg State.frame (Host.Outcome.next.inj h))

end Sys2Proof.Machine
end

section
/-! SUPPORT. One damaged byte of an escaped region (44_framing.md R94 (g)): the region has another length, or one byte of it is another. -/

namespace Sys2Proof.Machine

/-- `r'` is `r` with another byte in one place. -/
def OneByteOff (r r' : List Byte) : Prop := ∃ k b b', r[k]? = some b ∧ b' ≠ b ∧ r' = r.set k b'

theorem OneByteOff.head {b b' : Byte} (h : b' ≠ b) (r : List Byte) : OneByteOff (b :: r) (b' :: r) := ⟨0, b, b', rfl, h, rfl⟩

theorem OneByteOff.cons {r r' : List Byte} (b : Byte) (h : OneByteOff r r') : OneByteOff (b :: r) (b :: r') := by
  obtain ⟨k, c, c', hk, hc, rfl⟩ := h
  exact ⟨k + 1, c, c', hk, hc, rfl⟩

/-- What damage does to a region: another length, or one byte off. -/
def Damaged (r r' : List Byte) : Prop := r'.length ≠ r.length ∨ OneByteOff r r'

theorem Damaged.cons {r r' : List Byte} (b : Byte) (h : Damaged r r') : Damaged (b :: r) (b :: r') :=
  h.imp (fun hl => by simpa using hl) (OneByteOff.cons b)

/-- A change of one byte that turns neither token into `ESC`. -/
structure Damage (g : Byte → Byte) : Prop where
  changes : ∀ b, g b ≠ b
  tDelim : g Config.tDelim ≠ Config.esc
  tEsc : g Config.tEsc ≠ Config.esc

theorem damage_flip {t : Nat} (ht : t < 8) : Damage (fun b => b ^^^ (1 <<< t)) := by
  have flips : ∀ t : Fin 8, (1 <<< t.val : Byte) ≠ 0 ∧ Config.tDelim ^^^ (1 <<< t.val) ≠ Config.esc ∧ Config.tEsc ^^^ (1 <<< t.val) ≠ Config.esc := by
    decide
  obtain ⟨hne, hd, he⟩ := flips ⟨t, ht⟩
  exact ⟨fun b h => hne ((BitVec.xor_right_inj b).1 (h.trans BitVec.xor_zero.symm)), hd, he⟩

theorem modify_append_left {α : Type} {a : List α} {j : Nat} (h : j < a.length) (b : List α) (g : α → α) :
    (a ++ b).modify j g = a.modify j g ++ b := by
  induction a generalizing j with
  | nil => cases h
  | cons x a ih =>
    cases j with
    | zero => rfl
    | succ j => simp [ih (Nat.lt_of_succ_lt_succ h)]

theorem modify_append_right {α : Type} (a b : List α) (j : Nat) (g : α → α) : (a ++ b).modify (a.length + j) g = a ++ b.modify j g := by
  induction a with
  | nil => simp
  | cons x a ih => rw [List.length_cons, Nat.add_right_comm, List.cons_append, List.modify_succ_cons, ih, List.cons_append]

/-- An escaped region that begins with another byte than `ESC` is of a region that begins with it. -/
theorem escape_eq_cons {r : List Byte} {c : Byte} (h : (escape r).head? = some c) (hc : c ≠ Config.esc) :
    ∃ r', r = c :: r' ∧ escape r = c :: escape r' := by
  cases r with
  | nil => cases h
  | cons y r =>
    rcases escapeByte_cases y with ⟨-, hy⟩ | ⟨-, hy⟩ | ⟨-, -, hy⟩
    all_goals
      rw [escape, hy] at h ⊢
      obtain rfl := Option.some.inj h
    · exact absurd rfl hc
    · exact absurd rfl hc
    · exact ⟨r, rfl, rfl⟩

/-- A damaged byte that stood for itself: it is another byte, or, as an `ESC` in front of a token, it takes the token with it. -/
theorem damaged_literal {x x' : Byte} (hx : x' ≠ x) (r : List Byte) : Damaged (x :: r) (unescape (x' :: escape r)) := by
  by_cases alone : x' = Config.esc → (escape r).head? ≠ some Config.tDelim ∧ (escape r).head? ≠ some Config.tEsc
  · rw [unescape_cons alone, unescape_escape]; exact .inr (.head hx r)
  · obtain ⟨rfl, token⟩ := Classical.not_imp.1 alone
    rw [not_and_or, not_not, not_not] at token
    rcases token with h | h
    · obtain ⟨r, rfl, e⟩ := escape_eq_cons h (by decide)
      rw [e, unescape_pair_delim, unescape_escape]; exact .inl (by simp)
    · obtain ⟨r, rfl, e⟩ := escape_eq_cons h (by decide)
      rw [e, unescape_pair_esc, unescape_escape]; exact .inl (by simp)

/-- A damaged `ESC` of a pair: both bytes of the pair stand for themselves. -/
theorem damaged_esc {c tok : Byte} (hc : c ≠ Config.esc) (ht : tok ≠ Config.esc) (x : Byte) (r : List Byte) :
    Damaged (x :: r) (unescape (c :: tok :: escape r)) := by
  rw [unescape_cons_of_ne hc, unescape_cons_of_ne ht, unescape_escape]
  exact .inl (by simp)

/-- A damaged token of a pair: the other token, or the `ESC` and the byte each stand for themselves. -/
theorem damaged_token {x tok t' : Byte} (hx : escapeByte x = [Config.esc, tok]) (ht : t' ≠ tok) (he : t' ≠ Config.esc) (r : List Byte) :
    Damaged (x :: r) (unescape (Config.esc :: t' :: escape r)) := by
  have other : ∀ {y : Byte}, escapeByte y = [Config.esc, t'] → Damaged (x :: r) (unescape (Config.esc :: t' :: escape r)) := by
    intro y hy
    have pair : unescape (Config.esc :: t' :: escape r) = y :: r := by
      rw [← unescape_escape (y :: r), escape, hy]; rfl
    rw [pair]
    exact .inr (.head (fun h => ht (by rw [h, hx] at hy; injection hy with _ h; injection h with h; exact h.symm)) r)
  by_cases hd : t' = Config.tDelim
  · exact other (y := Config.delim) (by rw [hd]; rfl)
  · by_cases hE : t' = Config.tEsc
    · exact other (y := Config.esc) (by rw [hE]; rfl)
    · rw [unescape_cons (e := t' :: escape r) fun _ => ⟨fun h => hd (Option.some.inj h), fun h => hE (Option.some.inj h)⟩, unescape_cons_of_ne he,
        unescape_escape]
      exact .inl (by simp)

/-- One damaged byte of an escaped region damages the region. -/
theorem damaged_of_modify {g : Byte → Byte} (hg : Damage g) {r : List Byte} {j : Nat} (hj : j < (escape r).length) :
    Damaged r (unescape ((escape r).modify j g)) := by
  induction r generalizing j with
  | nil => cases hj
  | cons x r ih =>
    by_cases inside : j < (escapeByte x).length
    · rw [escape, modify_append_left inside]
      rcases escapeByte_cases x with ⟨-, h⟩ | ⟨-, h⟩ | ⟨-, -, h⟩
      · rw [h] at inside ⊢
        match j, inside with
        | 0, _ => exact damaged_esc (hg.changes _) (by decide) x r
        | 1, _ => exact damaged_token h (hg.changes _) hg.tDelim r
      · rw [h] at inside ⊢
        match j, inside with
        | 0, _ => exact damaged_esc (hg.changes _) (by decide) x r
        | 1, _ => exact damaged_token h (hg.changes _) hg.tEsc r
      · rw [h] at inside ⊢
        obtain rfl : j = 0 := Nat.lt_one_iff.1 inside
        exact damaged_literal (hg.changes x) r
    · obtain ⟨k, rfl⟩ := Nat.exists_eq_add_of_le (Nat.not_lt.1 inside)
      have hk : k < (escape r).length := by rw [escape, List.length_append] at hj; omega
      rw [escape, modify_append_right, unescape_escapeByte_append]
      exact (ih hk).cons x

/-- A region of payload and checksum with one byte off is a payload and a checksum that do not match. -/
theorem checksum_of_oneByteOff {pay r' : List Byte} {lo hi : Byte} (hck : ~~~(wordSum pay) = hi ++ lo) (h : OneByteOff (pay ++ [lo, hi]) r') :
    ∃ pay' lo' hi', r' = pay' ++ [lo', hi'] ∧ pay'.length = pay.length ∧ ~~~(wordSum pay') ≠ hi' ++ lo' := by
  obtain ⟨k, b, b', hk, hb, rfl⟩ := h
  by_cases inside : k < pay.length
  · rw [List.getElem?_append_left inside] at hk
    refine ⟨pay.set k b', lo, hi, List.set_append_left k b' inside, List.length_set, fun h => wordSum_set_ne hk hb ?_⟩
    exact BitVec.not_inj.1 (h.trans hck.symm)
  · rw [List.getElem?_append_right (Nat.not_lt.1 inside)] at hk
    rw [List.set_append_right k b' (Nat.not_lt.1 inside)]
    match k - pay.length, hk with
    | 0, hk =>
      obtain rfl := Option.some.inj hk
      exact ⟨pay, b', hi, rfl, rfl, fun h => hb (append_byte_inj.1 (h.symm.trans hck)).2⟩
    | 1, hk =>
      obtain rfl := Option.some.inj hk
      exact ⟨pay, lo, b', rfl, rfl, fun h => hb (append_byte_inj.1 (h.symm.trans hck)).1⟩

/-- A candidate frame whose region is damaged is detected (44_framing.md R94 (g)). -/
theorem frameDecode_of_damaged {sch : Schema} {f pay : List Byte} {lo hi : Byte} (hf : ¬ framingFails f) (hp : pay.length = numBytes sch)
    (hck : ~~~(wordSum pay) = hi ++ lo) (h : Damaged (pay ++ [lo, hi]) (regionOf f)) :
    frameDecode sch f = .err .lengthMismatch ∨ frameDecode sch f = .err .checksumMismatch := by
  rcases h with hl | hb
  · left
    refine frameDecode_of_length_ne hf ?_
    rwa [List.length_append, hp] at hl
  · right
    obtain ⟨pay', lo', hi', hr, hp', hne⟩ := checksum_of_oneByteOff hck hb
    rw [frameDecode_of_region hf hr (hp'.trans hp), if_neg hne]

theorem State.deliver_ok_frame_update (s : State) (f : List Byte) (k : PacketKind) (x : Record) :
    State.deliver { s with frame := f } k (.ok x) = { s.freshRecord k x with frame := f, status := some .ok } := by
  cases k <;> rfl

/-- The outcome of a decode of a produced frame with byte `j` damaged. -/
theorem frameDecode_modify_frameEncode (x : Record) {g : Byte → Byte} (hg : Damage g) {j : Nat} (hj : j < (frameEncode x).length) :
    (j = 0 ∨ j + 1 = (frameEncode x).length → frameDecode (schemaOfRecord x) ((frameEncode x).modify j g) = .err .badFraming) ∧
    (j = 1 → frameDecode (schemaOfRecord x) ((frameEncode x).modify j g) = .ok x) ∧
    (1 < j → j + 1 < (frameEncode x).length →
      frameDecode (schemaOfRecord x) ((frameEncode x).modify j g) = .err .lengthMismatch ∨
      frameDecode (schemaOfRecord x) ((frameEncode x).modify j g) = .err .checksumMismatch) := by
  rw [frameEncode_length] at hj ⊢
  rw [frameEncode_eq]
  have first : ∀ l e, frameDecode (schemaOfRecord x) (g Config.delim :: l :: (e ++ [Config.delim])) = .err .badFraming := fun l e =>
    frameDecode_of_framingFails _ ((framingFails_iff _ _ _ _).2 (.inl (hg.changes _)))
  have last : ∀ l e, frameDecode (schemaOfRecord x) (Config.delim :: l :: (e ++ [g Config.delim])) = .err .badFraming := fun l e =>
    frameDecode_of_framingFails _ ((framingFails_iff _ _ _ _).2 (.inr (hg.changes _)))
  match j, hj with
  | 0, _ => exact ⟨fun _ => first _ _, fun h => absurd h (by decide), fun h => absurd h (by decide)⟩
  | 1, _ => exact ⟨fun h => by omega, fun _ => frameDecode_of_escaped x _, fun h => by omega⟩
  | j + 2, hj =>
    refine ⟨fun h => ?_, fun h => by omega, fun _ h => ?_⟩
    · have tail := modify_append_right (escape (unescapedRegion (packRecord x))) [Config.delim] 0 g
      rw [List.modify_succ_cons, List.modify_succ_cons, show j = (escape (unescapedRegion (packRecord x))).length + 0 by omega, tail]
      exact last _ _
    · have inside : j < (escape (unescapedRegion (packRecord x))).length := by omega
      rw [List.modify_succ_cons, List.modify_succ_cons, modify_append_left inside]
      refine frameDecode_of_damaged (by rw [framingFails_iff]; simp) (packRecord_length x) ?_ (regionOf_frame .. ▸ damaged_of_modify hg inside)
      rw [← checksum_eq_not]; exact (append_leBytes16 _).symm

end Sys2Proof.Machine
end

section
/-! The statement about one flipped bit of a frame. -/

namespace Sys2Proof.Machine

/-- Settles O49: a flipped bit damages one byte of the frame, and the place of the byte decides. -/
theorem singleBitDamageIsDetected : Obligations.SingleBitDamageIsDetected := by
  intro s j b hs hj hb
  obtain ⟨ends, link, middle⟩ := frameDecode_modify_frameEncode (s.recordOf s.kind) (damage_flip hb) hj
  rw [hs] at ends link middle
  refine ⟨_, _, exec_frmEnc s, exec_frmDec_of_outcome rfl, fun h => ?_, fun h => ?_, fun h h' => ?_⟩
  · exact (State.deliver_status_eq_iff (e := .badFraming)).2 (ends h)
  · refine (congrArg (State.deliver _ s.kind) (link h)).trans ?_
    rw [State.deliver_ok_frame_update]; rfl
  · exact (middle h h').imp (State.deliver_status_eq_iff (e := .lengthMismatch)).2 (State.deliver_status_eq_iff (e := .checksumMismatch)).2

end Sys2Proof.Machine
end

section
/-! SUPPORT. U0 and U6 in a call (41_packet_schema.md R78, 44_framing.md R93): every step of a consistent unit leaves it consistent and one step nearer to
the end, where it has emitted the payload or the frame of its Record. -/

namespace Sys2Proof.Machine

theorem extractLsb'_eq_shiftRight {w : Nat} (x : BitVec w) (k : Nat) : (x >>> k).setWidth 8 = x.extractLsb' k 8 := by
  ext i hi
  simp

/-- The bytes of a register, low byte first, as U0 takes them one by one. -/
theorem pack_eq_map (v : FieldValue) : pack v = (List.range v.type.width).map fun k => (fieldBits v).extractLsb' (8 * k) 8 := by
  have narrow : ∀ (h : Half) k, k + 8 ≤ 16 → h.extractLsb' k 8 = (h.setWidth 32).extractLsb' k 8 := by
    intro h k hk
    ext i hi
    have : k + i < 32 := by omega
    simp [this]
  cases v with
  | bool v =>
    have bit : ∀ v : Bit, v.setWidth 8 = (v.setWidth 32).extractLsb' 0 8 := by decide
    exact congrArg (· :: []) (bit v)
  | byte v =>
    have low : v = (v.setWidth 32).extractLsb' 0 8 := by
      ext i hi
      have : i < 32 := by omega
      simp [hi, this, BitVec.getLsbD_eq_getElem]
    exact congrArg (· :: []) low
  | int16 v | uint16 v => exact congrArg₂ (fun a b => [a, b]) (narrow v 0 (by decide)) (narrow v 8 (by decide))
  | int32 v | uint32 v | float32 v => rfl

theorem pack_getElem? {v : FieldValue} {bi : BitVec 2} (h : bi.toNat < v.type.width) : (pack v)[bi.toNat]? = some (fieldByte v bi) := by
  rw [pack_eq_map, List.getElem?_map, List.getElem?_range h, fieldByte, extractLsb'_eq_shiftRight]; rfl

theorem toNat_succ_of_lt {bi : BitVec 2} {w : Nat} (h : bi.toNat + 1 < w) (hw : w ≤ 4) : (bi + 1).toNat = bi.toNat + 1 := by
  rw [BitVec.toNat_add]
  exact Nat.mod_eq_of_lt (by simp; omega)

theorem U0.consistent_of_some {u : U0} {v : FieldValue} (h : u.record[u.fi]? = some v) :
    u.consistent = true ↔ u.bi.toNat < v.type.width ∧ u.pay = packRecord (u.record.take u.fi) ++ (pack v).take u.bi.toNat := by
  simp [U0.consistent, h]

theorem U0.consistent_of_none {u : U0} (h : u.record[u.fi]? = none) :
    u.consistent = true ↔ u.fi = u.record.length ∧ u.bi = 0 ∧ u.pay = packRecord u.record := by
  simp [U0.consistent, h, and_assoc]

theorem packRecord_take_succ {x : Record} {i : Nat} {v : FieldValue} (h : x[i]? = some v) :
    packRecord (x.take (i + 1)) = packRecord (x.take i) ++ pack v := by
  rw [List.take_add_one, h, packRecord_append]; simp [packRecord]

/-- At the front of field `i` the unit has emitted the fields before it. -/
theorem U0.consistent_of_field_start {u : U0} (hf : u.fi ≤ u.record.length) (hb : u.bi = 0) (hp : u.pay = packRecord (u.record.take u.fi)) :
    u.consistent = true := by
  cases hv : u.record[u.fi]? with
  | some v => exact (U0.consistent_of_some hv).2 ⟨hb ▸ v.type.width_pos, by rw [hp, hb]; simp⟩
  | none =>
    have full : u.fi = u.record.length := le_antisymm hf (List.getElem?_eq_none_iff.1 hv)
    exact (U0.consistent_of_none hv).2 ⟨full, hb, by rw [hp, full, List.take_length]⟩

theorem U0.start_consistent (k : PacketKind) (x : Record) : (U0.start k x).consistent = true :=
  U0.consistent_of_field_start (Nat.zero_le _) rfl rfl

/-- What a consistent U0 does next: one more byte of the payload, or nothing, having emitted it all. -/
theorem U0.next_cases {u : U0} (hu : u.consistent = true) :
    (∃ b w, u.next = some (b, w) ∧ w.consistent = true ∧ w.pay = u.pay ++ [b] ∧ w.active = u.active ∧ w.kind = u.kind ∧ w.record = u.record) ∨
    (u.next = none ∧ u.fi = u.record.length ∧ u.pay = packRecord u.record) := by
  cases hv : u.record[u.fi]? with
  | none =>
    obtain ⟨hf, -, hp⟩ := (U0.consistent_of_none hv).1 hu
    exact .inr ⟨U0.next_none hv, hf, hp⟩
  | some v =>
    obtain ⟨hb, hp⟩ := (U0.consistent_of_some hv).1 hu
    obtain ⟨hlt, -⟩ := List.getElem?_eq_some_iff.1 hv
    obtain ⟨w, hn, hc, hwp, ha, hk, hr⟩ := U0.next_some hv
    have more : (pack v).take (u.bi.toNat + 1) = (pack v).take u.bi.toNat ++ [fieldByte v u.bi] := by
      rw [List.take_add_one, pack_getElem? hb]; rfl
    refine .inl ⟨_, w, hn, ?_, hwp, ha, hk, hr⟩
    rcases advance_cases v.type.width u.fi u.bi with ⟨hw, e⟩ | ⟨hw, e⟩
    · obtain ⟨hfi, hbi⟩ := Prod.mk.inj (hc.trans e)
      refine U0.consistent_of_field_start (by rw [hfi, hr]; exact hlt) hbi ?_
      rw [hwp, hp, hfi, hr, packRecord_take_succ hv, List.append_assoc, ← more, hw, ← pack_length, List.take_length]
    · obtain ⟨hfi, hbi⟩ := Prod.mk.inj (hc.trans e)
      have hbn : w.bi.toNat = u.bi.toNat + 1 := hbi ▸ toNat_succ_of_lt (by omega) v.type.width_le_four
      refine (U0.consistent_of_some (v := v) (by rw [hfi, hr, hv])).2 ⟨by omega, ?_⟩
      rw [hwp, hp, hfi, hr, hbn, more, List.append_assoc]

/-- What a consistent U0 has emitted is no longer than its payload. -/
theorem U0.pay_length_le {u : U0} (hu : u.consistent = true) : u.pay.length ≤ (packRecord u.record).length := by
  cases hv : u.record[u.fi]? with
  | none =>
    obtain ⟨-, -, hp⟩ := (U0.consistent_of_none hv).1 hu
    rw [hp]
  | some v =>
    obtain ⟨-, hp⟩ := (U0.consistent_of_some hv).1 hu
    have whole := congrArg (List.length ∘ packRecord) (List.take_append_drop (u.fi + 1) u.record)
    have part : ((pack v).take u.bi.toNat).length ≤ (pack v).length := List.length_take_le' _ _
    simp only [Function.comp_apply, packRecord_append, packRecord_take_succ hv, List.length_append] at whole
    rw [hp, List.length_append]
    omega

theorem U0.pay_of_end {u : U0} (hu : u.consistent = true) (hf : u.fi = u.record.length) : u.pay = packRecord u.record := by
  have hv : u.record[u.fi]? = none := List.getElem?_eq_none_iff.2 hf.ge
  obtain ⟨-, -, hp⟩ := (U0.consistent_of_none hv).1 hu
  exact hp

/-- One more byte is the low byte of a new word, or the high byte of the last one. -/
theorem wordSum_append_byte (p : List Byte) (b : Byte) :
    wordSum (p ++ [b]) = wordSum p + (if p.length % 2 = 1 then b ++ (0 : Byte) else (0 : Byte) ++ b) := by
  have low : (b.setWidth 16 : Half) = (0 : Byte) ++ b := BitVec.setWidth_eq_append (by decide)
  induction p using wordSum.induct with
  | case1 => simpa [wordSum] using low
  | case2 lo =>
    apply BitVec.eq_of_toNat_eq
    have := lo.isLt
    have := b.isLt
    rw [List.singleton_append, wordSum, wordSum, wordSum, add_zero, if_pos (by rfl), BitVec.toNat_add, toNat_append_byte, toNat_append_byte,
      BitVec.toNat_setWidth, show (0 : Byte).toNat = 0 from rfl]
    omega
  | case3 lo hi p ih =>
    rw [List.cons_append, List.cons_append, wordSum, ih, wordSum, BitVec.add_assoc, List.length_cons, List.length_cons, Nat.add_assoc,
      Nat.add_mod_right]

/-- A checksum unit has summed the bytes `p`. -/
structure U2.Summed (u : U2) (p : List Byte) : Prop where
  acc : u.acc = wordSum p
  phase : u.phase = decide (p.length % 2 = 1)

theorem U2.start_summed : U2.start.Summed [] := ⟨rfl, rfl⟩

theorem U2.Summed.byte {u : U2} {p : List Byte} (h : u.Summed p) (b : Byte) : (u.byte b).Summed (p ++ [b]) := by
  refine ⟨?_, ?_⟩
  · rw [wordSum_append_byte, U2.byte, h.acc, h.phase]; simp
  · rw [U2.byte, h.phase, List.length_append, List.length_singleton]
    exact decide_not.symm.trans (decide_eq_decide.2 (by omega))

theorem U2.Summed.check {u : U2} {p : List Byte} (h : u.Summed p) : u.check = checksum p := by
  rw [U2.check, h.acc, checksum_eq_not]

/-- What a U6 in a call has emitted at its stage (44_framing.md R93): the last clause of `U6.consistent`. -/
def U6.Emitted (u : U6) : Prop :=
  match u.stage with
  | .lead => u.frame = [] ∧ u.u0.pay = [] ∧ u.u0.fi = 0
  | .link => u.frame = [Config.delim] ∧ u.u0.pay = [] ∧ u.u0.fi = 0
  | .body => u.frame = frameBody u.u0.pay
  | .ckLo => u.u0.fi = u.u0.record.length ∧ u.frame = frameBody u.u0.pay
  | .ckHi => u.u0.fi = u.u0.record.length ∧ u.frame = frameBody (u.u0.pay ++ [(checksum u.u0.pay).extractLsb' 0 8])
  | .trail => u.u0.fi = u.u0.record.length ∧ u.frame = frameBody (unescapedRegion u.u0.pay)
  | .done => u.u0.fi = u.u0.record.length ∧ u.frame = frameEncode u.u0.record

theorem U6.consistent_iff (u : U6) : u.consistent = true ↔ u.u0.consistent = true ∧ u.u2.Summed u.u0.pay ∧ u.Emitted := by
  have summed : u.u2.Summed u.u0.pay ↔ u.u2.acc = wordSum u.u0.pay ∧ u.u2.phase = decide (u.u0.pay.length % 2 = 1) :=
    ⟨fun h => ⟨h.acc, h.phase⟩, fun h => ⟨h.1, h.2⟩⟩
  rw [summed]
  unfold U6.consistent U6.Emitted
  cases u.stage <;> simp only [Bool.and_eq_true, beq_iff_eq, and_assoc]

theorem U6.start_consistent (k : PacketKind) (x : Record) : (U6.start k x).consistent = true :=
  (U6.consistent_iff _).2 ⟨U0.start_consistent k x, U2.start_summed, rfl, rfl, rfl⟩

theorem frameBody_append (p : List Byte) (b : Byte) : frameBody (p ++ [b]) = frameBody p ++ escapeByte b := by
  simp [frameBody, escape_append, escape]

/-- How many steps a U6 in a call is from stage `DONE`. -/
def U6.stepsLeft (u : U6) : Nat :=
  match u.stage with
  | .lead => (packRecord u.u0.record).length + 6
  | .link => (packRecord u.u0.record).length + 5
  | .body => (packRecord u.u0.record).length - u.u0.pay.length + 4
  | .ckLo => 3
  | .ckHi => 2
  | .trail => 1
  | .done => 0

/-- A step of U6 keeps it consistent, brings it one step nearer to `DONE`, and works on the same Record. -/
theorem U6.next_progress {u : U6} (hu : u.consistent = true) (hs : u.stage ≠ .done) :
    u.next.consistent = true ∧ u.next.stepsLeft + 1 = u.stepsLeft ∧ u.next.active = u.active ∧ u.next.kind = u.kind ∧
      u.next.u0.record = u.u0.record := by
  obtain ⟨h0, h2, he⟩ := (U6.consistent_iff u).1 hu
  obtain ⟨a, k, stage, u0, u2, frame⟩ := u
  replace h0 : u0.consistent = true := h0
  replace h2 : u2.Summed u0.pay := h2
  cases stage with
  | lead =>
    obtain ⟨rfl, hp, hf⟩ := he
    exact ⟨(U6.consistent_iff _).2 ⟨h0, h2, rfl, hp, hf⟩, rfl, rfl, rfl, rfl⟩
  | link =>
    obtain ⟨rfl, hp, hf⟩ := he
    refine ⟨(U6.consistent_iff _).2 ⟨h0, h2, ?_⟩, ?_, rfl, rfl, rfl⟩
    · show _ = frameBody u0.pay
      rw [hp]; rfl
    · show _ - u0.pay.length + 4 + 1 = _
      rw [hp]; rfl
  | body =>
    obtain rfl : frame = frameBody u0.pay := he
    rcases U0.next_cases h0 with ⟨b, w, hn, hw, hp, -, -, hr⟩ | ⟨hn, hf, hp⟩
    · have e : U6.next ⟨a, k, .body, u0, u2, frameBody u0.pay⟩ = ⟨a, k, .body, w, u2.byte b, frameBody u0.pay ++ U4.emitted b⟩ := by
        simp [U6.next, hn]
      rw [e]
      refine ⟨(U6.consistent_iff _).2 ⟨hw, ?_, ?_⟩, ?_, rfl, rfl, hr⟩
      · show (u2.byte b).Summed w.pay
        rw [hp]; exact h2.byte b
      · show _ = frameBody w.pay
        rw [hp, frameBody_append, U4.emitted_eq]
      · have bound := U0.pay_length_le hw
        rw [hp, hr, List.length_append, List.length_singleton] at bound
        show (packRecord w.record).length - w.pay.length + 4 + 1 = (packRecord u0.record).length - u0.pay.length + 4
        rw [hp, hr, List.length_append, List.length_singleton]
        omega
    · have e : U6.next ⟨a, k, .body, u0, u2, frameBody u0.pay⟩ = ⟨a, k, .ckLo, u0, u2, frameBody u0.pay⟩ := by simp [U6.next, hn]
      rw [e]
      refine ⟨(U6.consistent_iff _).2 ⟨h0, h2, hf, rfl⟩, ?_, rfl, rfl, rfl⟩
      show 3 + 1 = (packRecord u0.record).length - u0.pay.length + 4
      rw [hp, Nat.sub_self]
  | ckLo =>
    obtain ⟨hf, (rfl : frame = frameBody u0.pay)⟩ := he
    refine ⟨(U6.consistent_iff _).2 ⟨h0, h2, hf, ?_⟩, rfl, rfl, rfl, rfl⟩
    show frameBody u0.pay ++ U4.emitted (u2.check.extractLsb' 0 8) = frameBody (u0.pay ++ [(checksum u0.pay).extractLsb' 0 8])
    rw [h2.check, frameBody_append, U4.emitted_eq]
  | ckHi =>
    obtain ⟨hf, (rfl : frame = frameBody (u0.pay ++ [(checksum u0.pay).extractLsb' 0 8]))⟩ := he
    refine ⟨(U6.consistent_iff _).2 ⟨h0, h2, hf, ?_⟩, rfl, rfl, rfl, rfl⟩
    show _ ++ U4.emitted (u2.check.extractLsb' 8 8) = _
    rw [h2.check, U4.emitted_eq, ← frameBody_append, List.append_assoc]; rfl
  | trail =>
    obtain ⟨hf, (rfl : frame = frameBody (unescapedRegion u0.pay))⟩ := he
    refine ⟨(U6.consistent_iff _).2 ⟨h0, h2, hf, ?_⟩, rfl, rfl, rfl, rfl⟩
    show frameBody (unescapedRegion u0.pay) ++ [Config.delim] = frameEncode u0.record
    rw [U0.pay_of_end h0 hf]; rfl
  | done => exact absurd rfl hs

/-- A consistent U6 in stage `DONE` has emitted the frame of its Record. -/
theorem U6.frame_of_done {u : U6} (hu : u.consistent = true) (hs : u.stage = .done) : u.frame = frameEncode u.u0.record := by
  obtain ⟨-, -, he⟩ := (U6.consistent_iff u).1 hu
  rw [U6.Emitted, hs] at he
  exact he.2

theorem U6.stepsLeft_eq_zero {u : U6} : u.stepsLeft = 0 ↔ u.stage = .done := by
  unfold U6.stepsLeft
  cases u.stage <;> simp

end Sys2Proof.Machine
end

section
/-! SUPPORT. The calls of U0 and U6, step by step to their end: by the caller's ticks, and with nothing lined up (70_reset_and_hazards.md R136). -/

namespace Sys2Proof.Machine

theorem stepTimes_interact {s t : State} {it : Interaction} {rest : List Interaction} (k : Nat) (hp : s.pending = it :: rest)
    (h : interact it { s with pending := rest } = .next t) : stepTimes (k + 1) s = stepTimes k t :=
  stepTimes_next ((step_interact hp).trans h)

theorem State.advanceU0_of_some {s : State} {b : Byte} {u : U0} (h : s.u0.next = some (b, u)) : s.advanceU0 = { s with u0 := u } := by
  simp [State.advanceU0, h]

theorem State.advanceU0_of_none {s : State} (h : s.u0.next = none) :
    s.advanceU0 = { s with pay := s.u0.pay, u0 := U0.idle, loanU0 := false } := by
  simp [State.advanceU0, h]

theorem State.advanceU6_of_ne_done {s : State} (h : s.u6.stage ≠ .done) : s.advanceU6 = { s with u6 := s.u6.next } := if_neg h

theorem State.advanceU6_of_done {s : State} (h : s.u6.stage = .done) :
    s.advanceU6 = { s with frame := s.u6.frame, u6 := U6.idle, loanU6 := false } := if_pos h

theorem State.runU0_of_active {s : State} (h : s.u0.active = true) : s.runU0 = s.advanceU0 := if_pos h

/-- With nothing lined up a call of U0 takes its next step, whatever U6 does beside it. -/
theorem step_alone_u0 {s : State} (hs : s.pending = []) (ha : s.u0.active = true) :
    ∃ t, step s = .next t ∧ t.pay = s.advanceU0.pay ∧ t.u0 = s.advanceU0.u0 ∧ t.loanU0 = s.advanceU0.loanU0 ∧
      t.pending = s.advanceU0.pending := by
  obtain ⟨f, v, l, h6⟩ := s.advanceU0.runU6_frame
  have one : step s = .next s.advanceU0.runU6 := by rw [step_alone hs, State.runUnits, State.runU0_of_active ha]
  exact ⟨_, one.trans (congrArg _ h6), rfl, rfl, rfl, rfl⟩

/-- With nothing lined up a call of U6 takes its next step, whatever U0 does beside it. -/
theorem step_alone_u6 {s : State} (hs : s.pending = []) (ha : s.u6.active = true) :
    ∃ t, step s = .next t ∧ t.frame = s.advanceU6.frame ∧ t.u6 = s.advanceU6.u6 ∧ t.loanU6 = s.advanceU6.loanU6 ∧
      t.pending = s.advanceU6.pending := by
  obtain ⟨p, v, l, h0⟩ := s.runU0_frame
  have one : step s = .next (State.advanceU6 { s with pay := p, u0 := v, loanU0 := l }) := by
    rw [step_alone hs, State.runUnits, h0]
    exact congrArg _ (if_pos ha)
  refine ⟨_, one, ?_⟩
  unfold State.advanceU6
  by_cases h : s.u6.stage = .done
  · rw [if_pos h, if_pos h]; exact ⟨rfl, rfl, rfl, rfl⟩
  · rw [if_neg h, if_neg h]; exact ⟨rfl, rfl, rfl, rfl⟩

/-- What the caller has lined up has no part in a step of U0. -/
theorem State.advanceU0_pending (s : State) (p : List Interaction) :
    State.advanceU0 { s with pending := p } = { s.advanceU0 with pending := p } := by
  unfold State.advanceU0
  cases s.u0.next <;> rfl

/-- What the caller has lined up has no part in a step of U6. -/
theorem State.advanceU6_pending (s : State) (p : List Interaction) :
    State.advanceU6 { s with pending := p } = { s.advanceU6 with pending := p } := by
  unfold State.advanceU6
  by_cases h : s.u6.stage = .done
  · rw [if_pos h, if_pos h]
  · rw [if_neg h, if_neg h]

/-- A tick of U0 in a call is its next step. -/
theorem stepTimes_tick_u0 {s : State} {its : List Interaction} (k : Nat) (hp : s.pending = .tick .u0 :: its) (ha : s.u0.active = true) :
    stepTimes (k + 1) s = stepTimes k { s.advanceU0 with pending := its } :=
  stepTimes_interact k hp ((if_pos ha).trans (congrArg _ (s.advanceU0_pending its)))

/-- A tick of U6 in a call is its next step. -/
theorem stepTimes_tick_u6 {s : State} {its : List Interaction} (k : Nat) (hp : s.pending = .tick .u6 :: its) (ha : s.u6.active = true) :
    stepTimes (k + 1) s = stepTimes k { s.advanceU6 with pending := its } :=
  stepTimes_interact k hp ((if_pos ha).trans (congrArg _ (s.advanceU6_pending its)))

/-- A consistent U0 with bytes still to emit emits one of them. -/
theorem U0.next_of_lt {u : U0} (hu : u.consistent = true) (h : u.pay.length < (packRecord u.record).length) :
    ∃ b w, u.next = some (b, w) ∧ w.consistent = true ∧ w.pay.length = u.pay.length + 1 ∧ w.active = u.active ∧ w.record = u.record := by
  rcases U0.next_cases hu with ⟨b, w, hn, hw, hp, ha, -, hr⟩ | ⟨-, -, hp⟩
  · exact ⟨b, w, hn, hw, by rw [hp, List.length_append]; rfl, ha, hr⟩
  · rw [hp] at h; exact absurd h (lt_irrefl _)

/-- A consistent U0 that has emitted all bytes is at its end. -/
theorem U0.next_of_length_eq {u : U0} (hu : u.consistent = true) (h : u.pay.length = (packRecord u.record).length) :
    u.next = none ∧ u.pay = packRecord u.record := by
  rcases U0.next_cases hu with ⟨b, w, -, hw, hp, -, -, hr⟩ | ⟨hn, -, hp⟩
  · have bound := U0.pay_length_le hw
    rw [hp, hr, List.length_append, List.length_singleton] at bound
    omega
  · exact ⟨hn, hp⟩

theorem U6.stage_ne_done {u : U6} {m : Nat} (h : u.stepsLeft = m + 1) : u.stage ≠ .done := fun hd =>
  Nat.succ_ne_zero m (h.symm.trans (U6.stepsLeft_eq_zero.2 hd))

/-- `m` bytes before its end U0 needs `m + 1` ticks, the last one for the end of the call. -/
theorem stepTimes_ticks_u0 (m : Nat) {s : State} (hp : s.pending = List.replicate (m + 1) (.tick .u0)) (hu : s.u0.consistent = true)
    (ha : s.u0.active = true) (hm : s.u0.pay.length + m = (packRecord s.u0.record).length) :
    stepTimes (m + 1) s = .next { s with pay := packRecord s.u0.record, u0 := U0.idle, loanU0 := false, pending := [] } := by
  induction m generalizing s with
  | zero =>
    obtain ⟨hn, hpay⟩ := U0.next_of_length_eq hu hm
    rw [stepTimes_tick_u0 0 hp ha, State.advanceU0_of_none hn, stepTimes_zero, hpay]; rfl
  | succ m ih =>
    obtain ⟨b, w, hn, hw, hl, hwa, hr⟩ := U0.next_of_lt hu (by omega)
    rw [stepTimes_tick_u0 _ hp ha, State.advanceU0_of_some hn, ← hr]
    exact ih rfl hw (hwa.trans ha) (show w.pay.length + m = (packRecord w.record).length by rw [hl, hr]; omega)

/-- With nothing lined up U0 comes to its end by itself. -/
theorem stepTimes_alone_u0 (m : Nat) {s : State} (hs : s.pending = []) (hu : s.u0.consistent = true) (ha : s.u0.active = true)
    (hm : s.u0.pay.length + m = (packRecord s.u0.record).length) :
    ∃ t, stepTimes (m + 1) s = .next t ∧ t.pay = packRecord s.u0.record ∧ t.u0 = U0.idle ∧ t.loanU0 = false := by
  induction m generalizing s with
  | zero =>
    obtain ⟨hn, hpay⟩ := U0.next_of_length_eq hu hm
    obtain ⟨t, one, hp, h0, hloan, -⟩ := step_alone_u0 hs ha
    rw [State.advanceU0_of_none hn] at hp h0 hloan
    exact ⟨t, stepTimes_next one, hp.trans hpay, h0, hloan⟩
  | succ m ih =>
    obtain ⟨b, w, hn, hw, hl, hwa, hr⟩ := U0.next_of_lt hu (by omega)
    obtain ⟨t, one, -, h0, -, hpend⟩ := step_alone_u0 hs ha
    rw [State.advanceU0_of_some hn] at h0 hpend
    obtain rfl := h0
    rw [stepTimes_next one, ← hr]
    exact ih (hpend.trans hs) hw (hwa.trans ha) (by rw [hl, hr]; omega)

/-- `m` steps before stage `DONE` U6 needs `m + 1` ticks, the last one for the end of the call. -/
theorem stepTimes_ticks_u6 (m : Nat) {s : State} (hp : s.pending = List.replicate (m + 1) (.tick .u6)) (hu : s.u6.consistent = true)
    (ha : s.u6.active = true) (hm : s.u6.stepsLeft = m) :
    stepTimes (m + 1) s = .next { s with frame := frameEncode s.u6.u0.record, u6 := U6.idle, loanU6 := false, pending := [] } := by
  induction m generalizing s with
  | zero =>
    have hd := U6.stepsLeft_eq_zero.1 hm
    rw [stepTimes_tick_u6 0 hp ha, State.advanceU6_of_done hd, stepTimes_zero, U6.frame_of_done hu hd]; rfl
  | succ m ih =>
    have hd := U6.stage_ne_done hm
    obtain ⟨hw, hl, hwa, -, hr⟩ := U6.next_progress hu hd
    rw [stepTimes_tick_u6 _ hp ha, State.advanceU6_of_ne_done hd, ← hr]
    exact ih rfl hw (hwa.trans ha) (show s.u6.next.stepsLeft = m by omega)

/-- With nothing lined up U6 comes to its end by itself. -/
theorem stepTimes_alone_u6 (m : Nat) {s : State} (hs : s.pending = []) (hu : s.u6.consistent = true) (ha : s.u6.active = true)
    (hm : s.u6.stepsLeft = m) :
    ∃ t, stepTimes (m + 1) s = .next t ∧ t.frame = frameEncode s.u6.u0.record ∧ t.u6 = U6.idle ∧ t.loanU6 = false := by
  induction m generalizing s with
  | zero =>
    have hd := U6.stepsLeft_eq_zero.1 hm
    obtain ⟨t, one, hf, h6, hloan, -⟩ := step_alone_u6 hs ha
    rw [State.advanceU6_of_done hd] at hf h6 hloan
    exact ⟨t, stepTimes_next one, hf.trans (U6.frame_of_done hu hd), h6, hloan⟩
  | succ m ih =>
    have hd := U6.stage_ne_done hm
    obtain ⟨hw, hl, hwa, -, hr⟩ := U6.next_progress hu hd
    obtain ⟨t, one, -, h6, -, hpend⟩ := step_alone_u6 hs ha
    rw [State.advanceU6_of_ne_done hd] at h6 hpend
    rw [stepTimes_next one, ← hr, ← show t.u6 = s.u6.next from h6]
    replace h6 : t.u6 = s.u6.next := h6
    rw [← h6] at hw hl hwa
    exact ih (hpend.trans hs) hw (hwa.trans ha) (by omega)

/-- The sequencer of U6, run to stage `DONE`. -/
theorem U6.iterate_next (m : Nat) {u : U6} (hu : u.consistent = true) (hm : u.stepsLeft = m) :
    (U6.next^[m] u).stage = .done ∧ (U6.next^[m] u).frame = frameEncode u.u0.record := by
  induction m generalizing u with
  | zero => exact ⟨U6.stepsLeft_eq_zero.1 hm, U6.frame_of_done hu (U6.stepsLeft_eq_zero.1 hm)⟩
  | succ m ih =>
    have hd := U6.stage_ne_done hm
    obtain ⟨hw, hl, -, -, hr⟩ := U6.next_progress hu hd
    rw [Function.iterate_succ_apply, ← hr]
    exact ih hw (by omega)

theorem U6.stepsLeft_le (u : U6) : u.stepsLeft ≤ (packRecord u.u0.record).length + 6 := by
  unfold U6.stepsLeft
  cases u.stage <;> simp only <;> omega

end Sys2Proof.Machine
end

section
/-! The statements about the units that run on their own. -/

namespace Sys2Proof.Machine

/-- Settles O50: U0 is consistent from its `Start` on, and each step emits one byte. -/
theorem serialEncoderRefinesSchEncode : Obligations.SerialEncoderRefinesSchEncode := by
  refine ⟨fun s => ⟨_, exec_schEncode s, ?_⟩, fun s hs ha hu => ?_⟩
  · exact (stepTimes_interact _ rfl rfl).trans (stepTimes_ticks_u0 _ rfl (U0.start_consistent _ _) rfl (Nat.zero_add _))
  · obtain ⟨m, hm⟩ := Nat.exists_eq_add_of_le (U0.pay_length_le hu)
    obtain ⟨t, ht, hp, h0, hl⟩ := stepTimes_alone_u0 m hs hu ha hm.symm
    exact ⟨m + 1, t, by omega, ht, hp, h0, hl⟩

/-- Settles O54: U6 is consistent from its `Start` on, and each step brings it one nearer to `DONE`. -/
theorem serialFormatterRefinesFrmEnc : Obligations.SerialFormatterRefinesFrmEnc := by
  refine ⟨fun s => ⟨_, rfl, ?_⟩, fun s => ⟨_, exec_frmEnc s, U6.iterate_next _ (U6.start_consistent _ _) rfl⟩, fun s hs ha hu => ?_⟩
  · exact (stepTimes_interact _ rfl rfl).trans (stepTimes_ticks_u6 ((packRecord s.tlmRec).length + 6) rfl (U6.start_consistent _ _) rfl rfl)
  · obtain ⟨t, ht, hf, h6, hl⟩ := stepTimes_alone_u6 _ hs hu ha rfl
    exact ⟨_, t, Nat.succ_le_succ s.u6.stepsLeft_le, ht, hf, h6, hl⟩

end Sys2Proof.Machine
end

section
/-! SUPPORT. The units that receive bytes (43_checksum.md R88, 42_escape.md R82): a call is its `Start`, one event a byte, and its `End`. -/

namespace Sys2Proof.Machine

/-- A unit `u` that takes every byte while `ok` holds: `put` sets its registers, `feed` is its `Byte(b)`. -/
structure Serial (u : ByteUnit) {α : Type} (put : State → α → State) (feed : α → Byte → α) (ok : α → Prop) : Prop where
  byte : ∀ s a b, ok a → byteUnit u b (put s a) = .next (put s (feed a b))
  ok_feed : ∀ a b, ok a → ok (feed a b)
  pending : ∀ s a p, { put s a with pending := p } = put { s with pending := p } a

theorem serial_u2 : Serial .u2 (fun s u => { s with u2 := u }) U2.byte (fun u => u.active = true) :=
  ⟨fun _ _ _ h => if_pos h, fun _ _ h => h, fun _ _ _ => rfl⟩

theorem serial_u3 : Serial .u3 (fun s u => { s with u3 := u }) U3.byte (fun u => u.sum.active = true) :=
  ⟨fun _ _ _ h => if_pos h, fun _ _ h => h, fun _ _ _ => rfl⟩

theorem serial_u4 : Serial .u4 (fun s u => { s with u4 := u }) U4.byte (fun _ => True) :=
  ⟨fun _ _ _ _ => rfl, fun _ _ h => h, fun _ _ _ => rfl⟩

theorem serial_u5 : Serial .u5 (fun s u => { s with u5 := u }) U5.byte (fun u => u.active = true) :=
  ⟨fun _ _ _ h => if_pos h, fun _ _ h => h, fun _ _ _ => rfl⟩

theorem serial_u7 : Serial .u7 (fun s u => { s with u7 := u }) U7.byte (fun u => u.active = true) :=
  ⟨fun _ _ _ h => if_pos h, fun _ _ h => h, fun _ _ _ => rfl⟩

section
variable {u : ByteUnit} {α : Type} {put : State → α → State} {feed : α → Byte → α} {ok : α → Prop}

/-- The bytes of a call, one step each. -/
theorem Serial.stepTimes_bytes (h : Serial u put feed ok) (k : Nat) (s : State) {a : α} (ha : ok a) (bs : List Byte) (rest : List Interaction) :
    stepTimes (bs.length + k) (put { s with pending := bs.map (.byte u) ++ rest } a) =
      stepTimes k (put { s with pending := rest } (bs.foldl feed a)) := by
  induction bs generalizing a with
  | nil => rw [List.length_nil, Nat.zero_add]; rfl
  | cons b bs ih =>
    have line := h.pending s a (.byte u b :: (bs.map (.byte u) ++ rest))
    have left := h.pending s a (bs.map (.byte u) ++ rest)
    have one : step (put { s with pending := .byte u b :: (bs.map (.byte u) ++ rest) } a) =
        .next (put { s with pending := bs.map (.byte u) ++ rest } (feed a b)) := by
      rw [← line, step_interact rfl, ← h.byte _ _ _ ha, ← left]; rfl
    rw [List.length_cons, Nat.add_right_comm]
    exact (stepTimes_next one).trans (ih (h.ok_feed a b ha))

/-- A whole call. -/
theorem Serial.runsTo_call (h : Serial u put feed ok) {s t : State} {a : α} (ha : ok a) {bs : List Byte}
    (start : ∀ p, startUnit u { s with pending := p } = .next (put { s with pending := p } a))
    (finish : finishUnit u (put { s with pending := [] } (bs.foldl feed a)) = .next t) :
    runsTo s (bs.length + 2) (.start u :: bs.map (.byte u) ++ [.finish u]) t := by
  have last : step (put { s with pending := [.finish u] } (bs.foldl feed a)) = .next t := by
    rw [← h.pending s _ [.finish u], step_interact rfl, ← finish, ← h.pending s _ []]; rfl
  have first := stepTimes_interact (s := { s with pending := .start u :: (bs.map (.byte u) ++ [.finish u]) }) (bs.length + 1) rfl (start _)
  exact first.trans <| (h.stepTimes_bytes 1 s ha bs [.finish u]).trans (stepTimes_next last)

end

theorem U2.Summed.foldl {u : U2} {p : List Byte} (h : u.Summed p) (bs : List Byte) : (bs.foldl U2.byte u).Summed (p ++ bs) := by
  induction bs generalizing u p with
  | nil => rwa [List.append_nil]
  | cons b bs ih => rw [List.append_cons]; exact ih (h.byte b)

theorem U2.foldl_active (bs : List Byte) (u : U2) : (bs.foldl U2.byte u).active = u.active := by
  induction bs generalizing u with
  | nil => rfl
  | cons b bs ih => exact ih _

/-- U3 sums as U2 does and keeps the received checksum. -/
theorem U3.foldl_byte (bs : List Byte) (u : U3) : bs.foldl U3.byte u = { u with sum := bs.foldl U2.byte u.sum } := by
  induction bs generalizing u with
  | nil => rfl
  | cons b bs ih => exact ih _

theorem U4.foldl_byte (bs : List Byte) (u : U4) : (bs.foldl U4.byte u).escr = u.escr ++ escape bs := by
  induction bs generalizing u with
  | nil => exact (List.append_nil _).symm
  | cons b bs ih => rw [List.foldl_cons, ih, U4.byte, U4.emitted_eq, escape, List.append_assoc]

theorem U5.foldl_active (bs : List Byte) (u : U5) : (bs.foldl U5.byte u).active = u.active := by
  induction bs generalizing u with
  | nil => rfl
  | cons b bs ih => exact ih _

/-- The byte that U5 holds back. -/
def escHeld (pend : Bool) : List Byte := if pend then [Config.esc] else []

theorem U5.flush_eq (u : U5) : u.flush = escHeld u.escPend := rfl

@[simp] theorem unescape_escHeld (pend : Bool) : unescape (escHeld pend) = escHeld pend := by cases pend <;> rfl

/-- What U5 emits for a byte and what it holds back after it stand for what it held back and the byte, whatever follows. -/
theorem U5.emitted_unescape (pend : Bool) (b : Byte) (e : List Byte) :
    (U5.emitted pend b).1 ++ unescape (escHeld (U5.emitted pend b).2 ++ e) = unescape (escHeld pend ++ b :: e) := by
  cases pend with
  | false =>
    by_cases hb : b = Config.esc
    · subst hb; rfl
    · have h : U5.emitted false b = ([b], false) := if_neg hb
      rw [h]; exact (unescape_cons_of_ne hb e).symm
  | true =>
    show _ = unescape (Config.esc :: b :: e)
    by_cases hd : b = Config.tDelim
    · subst hd; exact (unescape_pair_delim e).symm
    by_cases hE : b = Config.tEsc
    · subst hE; exact (unescape_pair_esc e).symm
    rw [unescape_cons (e := b :: e) fun _ => ⟨fun h => hd (Option.some.inj h), fun h => hE (Option.some.inj h)⟩]
    by_cases hb : b = Config.esc
    · subst hb; rfl
    · have h : U5.emitted true b = ([Config.esc, b], false) := (if_neg hd).trans <| (if_neg hE).trans (if_neg hb)
      rw [h, unescape_cons_of_ne hb]; rfl

/-- The bytes of the whole call of U5. -/
theorem U5.output_foldl (bs : List Byte) (u : U5) : (bs.foldl U5.byte u).output = u.raw ++ unescape (escHeld u.escPend ++ bs) := by
  induction bs generalizing u with
  | nil => rw [List.append_nil, unescape_escHeld]; rfl
  | cons b bs ih => rw [List.foldl_cons, ih, ← U5.emitted_unescape, ← List.append_assoc]; rfl

end Sys2Proof.Machine
end

section
/-! The statements about the checksum and escape units. -/

namespace Sys2Proof.Machine

/-- Settles O52: U2 has summed the payload; U3 sums as U2 does. -/
theorem serialChecksumRefinesChecksum : Obligations.SerialChecksumRefinesChecksum := by
  intro s
  have ck : (s.pay.foldl U2.byte U2.start).check = ~~~(wordSum s.pay) := by
    rw [(U2.start_summed.foldl s.pay).check, List.nil_append, checksum_eq_not]
  refine ⟨⟨_, exec_csumGen s, serial_u2.runsTo_call (a := U2.start) rfl (fun _ => rfl) ?_⟩,
    ⟨_, exec_csumVfy s, serial_u3.runsTo_call (a := U3.start s.rxck) rfl (fun _ => rfl) ?_⟩⟩
  · exact (if_pos (U2.foldl_active s.pay U2.start)).trans
      (congrArg (fun c => Host.Outcome.next { s with ck := c, u2 := U2.idle, pending := [] }) ck)
  · rw [U3.foldl_byte]
    exact (if_pos (U2.foldl_active s.pay U2.start)).trans
      (congrArg (fun c => Host.Outcome.next { s with matched := some (if c = s.rxck then 1 else 0), u3 := U3.idle, pending := [] }) ck)

/-- Settles O53: U4 emits the escape of each byte; what U5 has emitted and holds back stands for what it has received. -/
theorem serialEscapeRefinesEscape : Obligations.SerialEscapeRefinesEscape := by
  intro s
  refine ⟨⟨_, exec_kissEsc s, serial_u4.runsTo_call (a := U4.idle) trivial (fun _ => rfl) ?_⟩,
    ⟨_, exec_kissUnesc s, serial_u5.runsTo_call (a := U5.start) rfl (fun _ => rfl) ?_⟩⟩
  · exact congrArg (fun e => Host.Outcome.next { s with escr := e, u4 := U4.idle, pending := [] }) (U4.foldl_byte s.raw U4.idle)
  · exact (if_pos (U5.foldl_active s.escr U5.start)).trans
      (congrArg (fun r => Host.Outcome.next { s with raw := r, u5 := U5.idle, pending := [] }) (U5.output_foldl s.escr U5.start))

end Sys2Proof.Machine
end

section
/-! SUPPORT. U1 in a call (41_packet_schema.md R78): what its registers hold of the bytes it has received. -/

namespace Sys2Proof.Machine

/-- Bit `i` of the assembled bytes is of byte `i / 8`. -/
theorem assemble_getLsbD (bs : List Byte) (i : Nat) :
    (assemble bs).getLsbD i = (decide (i < 32) && (bs[i / 8]?.getD 0).getLsbD (i % 8)) := by
  induction bs generalizing i with
  | nil => simp [assemble]
  | cons b bs ih =>
    rw [assemble_cons_getLsbD]
    by_cases h : i < 8
    · have : i < 32 := by omega
      simp [h, this, Nat.div_eq_of_lt h, Nat.mod_eq_of_lt h]
    · have hd : i / 8 = (i - 8) / 8 + 1 := by omega
      have hm : i % 8 = (i - 8) % 8 := by omega
      by_cases h32 : i < 32
      · have : i - 8 < 32 := by omega
        rw [if_neg h, hd, hm, List.getElem?_cons_succ, ih, decide_eq_true this, Bool.true_and]
      · simp [h, h32]

/-- The shift register after a byte: byte `bi` is the received one, the others are as they were. -/
theorem setShiftByte_getLsbD (sh : Word) (bi : BitVec 2) (b : Byte) {i : Nat} (hi : i < 32) :
    (setShiftByte sh bi b).getLsbD i = if i / 8 = bi.toNat then b.getLsbD (i % 8) else sh.getLsbD i := by
  have low : ∀ j, (0xFF : Word).getLsbD j = decide (j < 8) := by
    intro j
    by_cases h : j < 32
    · have small : ∀ j : Fin 32, (0xFF : Word).getLsbD j = decide (j.val < 8) := by decide
      exact small ⟨j, h⟩
    · rw [BitVec.getLsbD_of_ge _ _ (Nat.not_lt.1 h)]; simp; omega
  simp only [setShiftByte, BitVec.getLsbD_or, BitVec.getLsbD_and, BitVec.getLsbD_not, BitVec.getLsbD_shiftLeft, low, BitVec.getLsbD_setWidth, hi,
    decide_true, Bool.true_and]
  by_cases h : i / 8 = bi.toNat
  · have ge : ¬ i < 8 * bi.toNat := by omega
    have lt : i - 8 * bi.toNat < 8 := by omega
    have pos : i - 8 * bi.toNat = i % 8 := by omega
    have in32 : i % 8 < 32 := by omega
    simp [h, ge, pos, in32, Nat.mod_lt]
  · by_cases ge : i < 8 * bi.toNat
    · simp [h, ge]
    · have lt : ¬ i - 8 * bi.toNat < 8 := by omega
      have out : b.getLsbD (i - 8 * bi.toNat) = false := BitVec.getLsbD_of_ge _ _ (by omega)
      simp [h, ge, lt, out]

theorem setShiftByte_assemble {w : List Byte} {bi : BitVec 2} (hw : w.length = bi.toNat) (b : Byte) :
    setShiftByte (assemble w) bi b = assemble (w ++ [b]) := by
  apply BitVec.eq_of_getLsbD_eq
  intro i hi
  rw [setShiftByte_getLsbD _ _ _ hi, assemble_getLsbD, assemble_getLsbD, ← hw]
  rcases Nat.lt_trichotomy (i / 8) w.length with h | h | h
  · rw [if_neg h.ne, List.getElem?_append_left h]
  · rw [if_pos h, h, List.getElem?_concat_length]; simp [hi]
  · rw [if_neg h.ne', List.getElem?_eq_none h.le, List.getElem?_eq_none (by rw [List.length_append, List.length_singleton]; exact h)]

/-- A shift register that holds `bi` bytes holds one more after a byte. -/
theorem setShiftByte_above {sh : Word} {bi : BitVec 2} (h : sh >>> (8 * bi.toNat) = 0) (b : Byte) :
    setShiftByte sh bi b >>> (8 * (bi.toNat + 1)) = 0 := by
  apply BitVec.eq_of_getLsbD_eq
  intro i _
  have none : ∀ i, (0 : Word).getLsbD i = false := fun _ => BitVec.getLsbD_zero
  rw [BitVec.getLsbD_ushiftRight, none]
  by_cases hi : 8 * (bi.toNat + 1) + i < 32
  · have zero : sh.getLsbD (8 * bi.toNat + (8 + i)) = false := by rw [← BitVec.getLsbD_ushiftRight, h, none]
    rw [setShiftByte_getLsbD _ _ _ hi, if_neg (by omega), ← zero]
    congr 1; omega
  · exact BitVec.getLsbD_of_ge _ _ (Nat.not_lt.1 hi)

theorem unpackRecord_append {a : Schema} {p : List Byte} (h : p.length = numBytes a) (b : Schema) (q : List Byte) :
    unpackRecord (a ++ b) (p ++ q) = unpackRecord a p ++ unpackRecord b q := by
  induction a generalizing p with
  | nil =>
    obtain rfl := List.length_eq_zero_iff.1 h
    rfl
  | cons T a ih =>
    rw [numBytes] at h
    have fits : T.width ≤ p.length := by omega
    rw [List.cons_append, unpackRecord, unpackRecord, List.take_append_of_le_length fits, List.drop_append_of_le_length fits,
      ih (by rw [List.length_drop]; omega), List.cons_append]

theorem unpackRecord_length (sch : Schema) (bs : List Byte) : (unpackRecord sch bs).length = sch.length := by
  rw [← List.length_map (f := FieldValue.type)]
  exact congrArg List.length (unpackRecord_schema sch bs)

/-- The fields before `i + 1` are those before `i` and field `i`. -/
theorem unpackRecord_take_succ {sch : Schema} {i : Nat} {T : FieldType} (h : sch[i]? = some T) {q w : List Byte} (hq : q.length = offset sch i)
    (hw : w.length = T.width) : unpackRecord (sch.take (i + 1)) (q ++ w) = unpackRecord (sch.take i) q ++ [unpack T w] := by
  rw [List.take_add_one, h, unpackRecord_append (hq.trans rfl)]
  simp [unpackRecord, ← hw]

/-- U1 has received the bytes `q` of the fields before `fi`, and the bytes `w` of field `fi`. -/
structure U1.Holds (u : U1) (q w : List Byte) : Prop where
  fields : q.length = offset u.sch u.fi
  part : w.length = u.bi.toNat
  shift : u.sh = assemble w
  shadow : u.xs = unpackRecord (u.sch.take u.fi) q ++ (u.sch.drop u.fi).map FieldType.zero
  inside : (∃ T, u.sch[u.fi]? = some T ∧ u.bi.toNat < T.width) ∨ (u.fi = u.sch.length ∧ u.bi = 0)

/-- U1 has received the bytes `p` of the payload. -/
def U1.Received (u : U1) (p : List Byte) : Prop := ∃ q w, p = q ++ w ∧ u.Holds q w

theorem U1.start_received (k : PacketKind) (sch : Schema) : (U1.start k sch).Received [] := by
  refine ⟨[], [], rfl, rfl, rfl, rfl, rfl, ?_⟩
  cases sch with
  | nil => exact .inr ⟨rfl, rfl⟩
  | cons T sch => exact .inl ⟨T, rfl, T.width_pos⟩

theorem numBytes_eq_offset_length (sch : Schema) : numBytes sch = offset sch sch.length := by rw [offset, List.take_length]

theorem offset_le_numBytes (sch : Schema) (i : Nat) : offset sch i ≤ numBytes sch := by
  have := numBytes_split sch i
  omega

/-- All fields have been received exactly when all bytes have. -/
theorem U1.Received.complete_iff {u : U1} {p : List Byte} (h : u.Received p) : u.complete = true ↔ p.length = numBytes u.sch := by
  obtain ⟨q, w, rfl, hq, hw, -, -, ⟨T, hT, hb⟩ | ⟨hf, hb⟩⟩ := h
  · obtain ⟨hlt, -⟩ := List.getElem?_eq_some_iff.1 hT
    have short : (q ++ w).length < numBytes u.sch := by
      have := offset_succ hT ▸ offset_le_numBytes u.sch (u.fi + 1)
      rw [List.length_append]; omega
    exact ⟨fun hc => absurd (beq_iff_eq.1 (Bool.and_eq_true_iff.1 hc).1) hlt.ne, fun hl => absurd hl short.ne⟩
  · refine iff_of_true (Bool.and_eq_true_iff.2 ⟨beq_iff_eq.2 hf, beq_iff_eq.2 hb⟩) ?_
    rw [List.length_append, hq, hw, hf, hb, numBytes_eq_offset_length]; rfl

/-- With all bytes received the shadow set is the unpacked Record. -/
theorem U1.Received.shadow_eq {u : U1} {p : List Byte} (h : u.Received p) (hl : p.length = numBytes u.sch) : u.xs = unpackRecord u.sch p := by
  obtain ⟨hf, hb⟩ := Bool.and_eq_true_iff.1 (h.complete_iff.2 hl)
  obtain ⟨q, w, rfl, hq, hw, -, hs, -⟩ := h
  have none : w = [] := List.length_eq_zero_iff.1 (by rw [hw, beq_iff_eq.1 hb]; rfl)
  rw [hs, beq_iff_eq.1 hf, List.take_length, List.drop_length, none, List.map_nil, List.append_nil, List.append_nil]

/-- With all bytes received one more is refused. -/
theorem U1.Received.byte_none {u : U1} {p : List Byte} (h : u.Received p) (hl : p.length = numBytes u.sch) (b : Byte) : u.byte b = none := by
  obtain ⟨hf, -⟩ := Bool.and_eq_true_iff.1 (h.complete_iff.2 hl)
  exact U1.byte_none b (List.getElem?_eq_none (beq_iff_eq.1 hf).ge)

/-- With bytes still to come one more is taken. -/
theorem U1.Received.byte {u : U1} {p : List Byte} (h : u.Received p) (hl : p.length < numBytes u.sch) (b : Byte) :
    ∃ v, u.byte b = some v ∧ v.Received (p ++ [b]) ∧ v.sch = u.sch ∧ v.kind = u.kind ∧ v.active = u.active := by
  obtain ⟨q, w, rfl, hq, hw, hsh, hs, ⟨T, hT, hb⟩ | ⟨hf, hb⟩⟩ := h
  · obtain ⟨hlt, -⟩ := List.getElem?_eq_some_iff.1 hT
    have shift : setShiftByte u.sh u.bi b = assemble (w ++ [b]) := by rw [hsh, setShiftByte_assemble hw]
    by_cases last : u.bi.toNat + 1 = T.width
    · refine ⟨_, U1.byte_completes b hT last, ⟨q ++ (w ++ [b]), [], by simp, ?_, rfl, rfl, ?_, ?_⟩, rfl, rfl, rfl⟩
      · show (q ++ (w ++ [b])).length = offset u.sch (u.fi + 1)
        rw [offset_succ hT, List.length_append, List.length_append, hq, hw, ← last]; rfl
      · show u.xs.set u.fi (fieldOfBits T (setShiftByte u.sh u.bi b)) =
          unpackRecord (u.sch.take (u.fi + 1)) (q ++ (w ++ [b])) ++ (u.sch.drop (u.fi + 1)).map FieldType.zero
        have before : (unpackRecord (u.sch.take u.fi) q).length = u.fi := by rw [unpackRecord_length, List.length_take, Nat.min_eq_left hlt.le]
        have width : (w ++ [b]).length = T.width := by rw [List.length_append, hw, ← last]; rfl
        have field : u.sch.drop u.fi = T :: u.sch.drop (u.fi + 1) := List.drop_eq_getElem?_toList_append.trans (by rw [hT]; rfl)
        rw [shift, unpackRecord_take_succ hT hq width, hs, field, List.set_append_right _ _ before.le, before, Nat.sub_self, List.append_assoc]
        rfl
      · by_cases more : u.fi + 1 < u.sch.length
        · exact .inl ⟨_, List.getElem?_eq_getElem more, FieldType.width_pos _⟩
        · exact .inr ⟨by show u.fi + 1 = u.sch.length; omega, rfl⟩
    · refine ⟨_, U1.byte_inside b hT last, ⟨q, w ++ [b], by simp, hq, ?_, shift, hs, ?_⟩, rfl, rfl, rfl⟩
      · show (w ++ [b]).length = (u.bi + 1).toNat
        rw [toNat_succ_of_lt (w := T.width) (by omega) T.width_le_four, List.length_append, hw]; rfl
      · refine .inl ⟨T, hT, ?_⟩
        show (u.bi + 1).toNat < T.width
        rw [toNat_succ_of_lt (w := T.width) (by omega) T.width_le_four]; omega
  · rw [List.length_append, hq, hw, hf, hb, numBytes_eq_offset_length] at hl
    exact absurd hl (lt_irrefl _)

theorem step_byte {s : State} {u : ByteUnit} {b : Byte} {rest : List Interaction} (h : s.pending = .byte u b :: rest) :
    step s = byteUnit u b { s with pending := rest } := step_interact h

theorem step_finish {s : State} {u : ByteUnit} {rest : List Interaction} (h : s.pending = .finish u :: rest) :
    step s = finishUnit u { s with pending := rest } := step_interact h

theorem byteUnit_u1_of_some {s : State} {b : Byte} {v : U1} (ha : s.u1.active = true) (hv : s.u1.byte b = some v) :
    byteUnit .u1 b s = .next { s with u1 := v } := by
  rw [byteUnit_u1, if_pos ha, byteU1, hv]

theorem byteUnit_u1_of_none {s : State} {b : Byte} (ha : s.u1.active = true) (hv : s.u1.byte b = none) :
    byteUnit .u1 b s = .refused .badLength := by
  rw [byteUnit_u1, if_pos ha, byteU1, hv]

theorem finishUnit_u1_of_complete {s : State} (ha : s.u1.active = true) (hc : s.u1.complete = true) :
    finishUnit .u1 s = .next { s.freshRecord s.u1.kind s.u1.xs with u1 := U1.idle } := by
  rw [finishUnit_u1, if_pos ha, finishU1, if_pos hc]

theorem finishUnit_u1_of_incomplete {s : State} (ha : s.u1.active = true) (hc : ¬ s.u1.complete = true) :
    finishUnit .u1 s = .refused .badLength := by
  rw [finishUnit_u1, if_pos ha, finishU1, if_neg hc]

/-- The bytes of a call of U1, one step each, while no more than the schema's come. -/
theorem stepTimes_bytes_u1 (k : Nat) {s : State} {p bs : List Byte} {rest : List Interaction} (hr : s.u1.Received p) (ha : s.u1.active = true)
    (hp : s.pending = bs.map (.byte .u1) ++ rest) (hl : p.length + bs.length ≤ numBytes s.u1.sch) :
    ∃ v : U1, v.Received (p ++ bs) ∧ v.sch = s.u1.sch ∧ v.kind = s.u1.kind ∧ v.active = true ∧
      stepTimes (bs.length + k) s = stepTimes k { s with u1 := v, pending := rest } := by
  induction bs generalizing s p with
  | nil =>
    refine ⟨s.u1, by rwa [List.append_nil], rfl, rfl, ha, ?_⟩
    rw [List.length_nil, Nat.zero_add, ← show s.pending = rest from hp]
  | cons b bs ih =>
    rw [List.length_cons] at hl ⊢
    obtain ⟨v, hv, hrv, hsch, hkind, hact⟩ := hr.byte (by omega) b
    have one : step s = .next { s with u1 := v, pending := bs.map (.byte .u1) ++ rest } :=
      (step_byte hp).trans (byteUnit_u1_of_some ha hv)
    obtain ⟨x, hx, hxs, hxk, hxa, hrun⟩ := ih (s := { s with u1 := v, pending := bs.map (.byte .u1) ++ rest }) hrv (hact.trans ha) rfl
      (by rw [List.length_append, List.length_singleton, hsch]; omega)
    refine ⟨x, by rwa [List.append_cons], hxs.trans hsch, hxk.trans hkind, hxa, ?_⟩
    rw [Nat.add_right_comm]
    exact (stepTimes_next one).trans hrun

/-- Neither U1 nor the line has a part in what Record is delivered. -/
theorem State.freshRecord_of_call_u1 (s : State) (v : U1) (k : PacketKind) (x : Record) :
    { State.freshRecord { s with u1 := v, pending := [] } k x with u1 := U1.idle } = { s.freshRecord k x with u1 := U1.idle, pending := [] } := by
  cases k <;> rfl

/-- A call of U1 from its `Start` on, while no more bytes than the schema's come. -/
theorem stepTimes_call_u1 (k : Nat) (s : State) {bs : List Byte} (rest : List Interaction) (hl : bs.length ≤ numBytes (s.schemaOf s.kind)) :
    ∃ v : U1, v.Received bs ∧ v.sch = s.schemaOf s.kind ∧ v.kind = s.kind ∧ v.active = true ∧
      stepTimes (bs.length + k + 1) { s with pending := .start .u1 :: (bs.map (.byte .u1) ++ rest) } =
        stepTimes k { s with u1 := v, pending := rest } := by
  obtain ⟨v, hv, hsch, hkind, hact, hrun⟩ :=
    stepTimes_bytes_u1 k (s := { s with u1 := U1.start s.kind (s.schemaOf s.kind), pending := bs.map (.byte .u1) ++ rest }) (bs := bs)
      (U1.start_received s.kind (s.schemaOf s.kind)) rfl rfl (by rw [List.length_nil, Nat.zero_add]; exact hl)
  exact ⟨v, hv, hsch, hkind, hact, (stepTimes_interact _ rfl rfl).trans hrun⟩

end Sys2Proof.Machine
end

section
/-! The statement about the serial decoder. -/

namespace Sys2Proof.Machine

/-- Settles O51: with as many bytes as the schema has U1 delivers the unpacked Record; with fewer its `End` is refused, with more the first byte
too many. -/
theorem serialDecoderRefinesSchDecode : Obligations.SerialDecoderRefinesSchDecode := by
  intro s
  refine ⟨fun t ht => ?_, fun hrefused => ?_⟩
  · have hlen : s.pay.length = numBytes (s.schemaOf s.kind) := by
      by_contra hne
      cases (exec_schDecode_of_length_ne hne).symm.trans ht
    cases (exec_schDecode_of_length hlen).symm.trans ht
    obtain ⟨v, hv, hsch, hkind, hact, hrun⟩ := stepTimes_call_u1 1 s [.finish .u1] hlen.le
    rw [← hsch] at hlen
    have complete := finishUnit_u1_of_complete (s := { s with u1 := v, pending := [] }) hact (hv.complete_iff.2 hlen)
    refine hrun.trans (stepTimes_next ((step_finish rfl).trans (complete.trans ?_)))
    rw [hv.shadow_eq hlen, hsch, hkind]
    exact congrArg _ (s.freshRecord_of_call_u1 v _ _)
  · have hlen : s.pay.length ≠ numBytes (s.schemaOf s.kind) := fun h => by cases (exec_schDecode_of_length h).symm.trans hrefused
    rcases Nat.lt_or_gt_of_ne hlen with short | long
    · obtain ⟨v, hv, hsch, -, hact, hrun⟩ := stepTimes_call_u1 1 s [.finish .u1] short.le
      have incomplete : ¬ v.complete = true := by rw [hv.complete_iff, hsch]; exact hlen
      exact hrun.trans (stepTimes_refused ((step_finish rfl).trans (finishUnit_u1_of_incomplete hact incomplete)))
    · obtain ⟨first, b, more, hpay, hfirst⟩ : ∃ first b more, s.pay = first ++ b :: more ∧ first.length = numBytes (s.schemaOf s.kind) :=
        ⟨_, _, _, (List.take_append_drop (numBytes (s.schemaOf s.kind)) s.pay).symm.trans (by rw [List.drop_eq_getElem_cons long]),
          by rw [List.length_take]; omega⟩
      obtain ⟨v, hv, hsch, -, hact, hrun⟩ := stepTimes_call_u1 (more.length + 2) s (.byte .u1 b :: (more.map (.byte .u1) ++ [.finish .u1])) hfirst.le
      rw [← hsch] at hfirst
      have count : s.pay.length + 2 = first.length + (more.length + 2) + 1 := by rw [hpay, List.length_append, List.length_cons]; omega
      have line : s.pay.map (Interaction.byte .u1) ++ [.finish .u1] =
          first.map (.byte .u1) ++ (.byte .u1 b :: (more.map (.byte .u1) ++ [.finish .u1])) := by rw [hpay]; simp
      rw [count, List.cons_append, line, hrun]
      exact stepTimes_refused ((step_byte rfl).trans (byteUnit_u1_of_none hact (hv.byte_none hfirst b)))

end Sys2Proof.Machine
end

section
/-! SUPPORT. U7 at the end of its call (44_framing.md R93): the unescaped bytes pass one by one to U1, U3 and the received checksum, and the outcome is that
of `FRM.DEC`. -/

namespace Sys2Proof.Machine

theorem U7.take_payload {u : U7} (h : u.cnt < numBytes u.sch) (b : Byte) :
    u.take b = { u with cnt := u.cnt + 1, u1 := (u.u1.byte b).getD u.u1, u3 := u.u3.byte b } := if_pos h

theorem U7.take_low {u : U7} (h : u.cnt = numBytes u.sch) (b : Byte) :
    u.take b = { u with cnt := u.cnt + 1, u3 := { u.u3 with rxck := u.u3.rxck.extractLsb' 8 8 ++ b } } :=
  (if_neg h.not_lt).trans (if_pos h)

theorem U7.take_high {u : U7} (h : u.cnt = numBytes u.sch + 1) (b : Byte) :
    u.take b = { u with cnt := u.cnt + 1, u3 := { u.u3 with rxck := b ++ u.u3.rxck.extractLsb' 0 8 } } :=
  (if_neg (by omega)).trans <| (if_neg (by omega)).trans (if_pos h)

theorem U7.take_beyond {u : U7} (h : numBytes u.sch + 1 < u.cnt) (b : Byte) : u.take b = { u with cnt := u.cnt + 1 } :=
  (if_neg (by omega)).trans <| (if_neg (by omega)).trans (if_neg (by omega))

/-- U7 has taken the unescaped bytes `p`: the first `N` are with U1 and U3, the next two are the received checksum. -/
structure U7.Taken (u : U7) (p : List Byte) : Prop where
  count : u.cnt = p.length
  schema : u.u1.sch = u.sch
  payload : u.u1.Received (p.take (numBytes u.sch))
  summed : u.u3.sum.Summed (p.take (numBytes u.sch))
  low : ∀ b, p[numBytes u.sch]? = some b → u.u3.rxck.extractLsb' 0 8 = b
  high : ∀ b, p[numBytes u.sch + 1]? = some b → u.u3.rxck.extractLsb' 8 8 = b

theorem U7.start_taken (k : PacketKind) (sch : Schema) : (U7.start k sch).Taken [] where
  count := rfl
  schema := rfl
  payload := by rw [List.take_nil]; exact U1.start_received k sch
  summed := by rw [List.take_nil]; exact U2.start_summed
  low _ h := nomatch h
  high _ h := nomatch h

theorem getElem?_concat_beyond {α : Type} {p : List α} {b : α} {i : Nat} (h : p.length < i) : (p ++ [b])[i]? = none :=
  List.getElem?_eq_none (by rw [List.length_append, List.length_singleton]; exact h)

theorem getElem?_concat_last {α : Type} {p : List α} {b : α} {i : Nat} (h : i = p.length) : (p ++ [b])[i]? = some b :=
  h ▸ List.getElem?_concat_length

/-- `U7.take` takes one byte more, of the same schema, and leaves its U5 alone. -/
theorem U7.Taken.take {u : U7} {p : List Byte} (h : u.Taken p) (b : Byte) :
    (u.take b).Taken (p ++ [b]) ∧ (u.take b).sch = u.sch ∧ (u.take b).u5 = u.u5 := by
  obtain ⟨hc, hsch, hr, hs, hlo, hhi⟩ := h
  have grown : u.cnt + 1 = (p ++ [b]).length := by rw [List.length_append, hc]; rfl
  have same : numBytes u.sch ≤ p.length → (p ++ [b]).take (numBytes u.sch) = p.take (numBytes u.sch) := List.take_append_of_le_length
  rcases Nat.lt_trichotomy p.length (numBytes u.sch) with lt | eq | gt
  · have whole : p.take (numBytes u.sch) = p := List.take_of_length_le lt.le
    have whole' : (p ++ [b]).take (numBytes u.sch) = p ++ [b] := List.take_of_length_le (by omega)
    rw [whole] at hr hs
    obtain ⟨v, hv, hrv, hvs, -⟩ := hr.byte (by rw [hsch]; exact lt) b
    rw [U7.take_payload (hc ▸ lt), hv]
    refine ⟨⟨grown, hvs.trans hsch, ?_, ?_, fun c h => ?_, fun c h => ?_⟩, rfl, rfl⟩
    · rw [whole']; exact hrv
    · rw [whole']; exact hs.byte b
    · cases (getElem?_concat_beyond lt).symm.trans h
    · cases (getElem?_concat_beyond (Nat.lt_succ_of_lt lt)).symm.trans h
  · rw [U7.take_low (hc.trans eq)]
    refine ⟨⟨grown, hsch, ?_, ?_, fun c h => ?_, fun c h => ?_⟩, rfl, rfl⟩
    · rw [same eq.ge]; exact hr
    · rw [same eq.ge]; exact hs
    · have last : b = c := Option.some.inj ((getElem?_concat_last eq.symm).symm.trans h)
      exact last ▸ BitVec.extractLsb'_append_eq_right
    · cases (getElem?_concat_beyond (eq ▸ Nat.lt_succ_self _)).symm.trans h
  · have old : (p ++ [b])[numBytes u.sch]? = p[numBytes u.sch]? := List.getElem?_append_left gt
    rcases Nat.eq_or_lt_of_le gt with eq1 | gt1
    · rw [U7.take_high (hc.trans eq1.symm)]
      refine ⟨⟨grown, hsch, ?_, ?_, fun c h => ?_, fun c h => ?_⟩, rfl, rfl⟩
      · rw [same gt.le]; exact hr
      · rw [same gt.le]; exact hs
      · exact BitVec.extractLsb'_append_eq_right.trans (hlo c (old.symm.trans h))
      · have last : b = c := Option.some.inj ((getElem?_concat_last eq1).symm.trans h)
        exact last ▸ BitVec.extractLsb'_append_eq_left
    · rw [U7.take_beyond (hc ▸ gt1)]
      refine ⟨⟨grown, hsch, ?_, ?_, fun c h => ?_, fun c h => ?_⟩, rfl, rfl⟩
      · rw [same gt.le]; exact hr
      · rw [same gt.le]; exact hs
      · exact hlo c (old.symm.trans h)
      · exact hhi c ((List.getElem?_append_left gt1).symm.trans h)

theorem U7.Taken.foldl_take {u : U7} {p : List Byte} (h : u.Taken p) (bs : List Byte) :
    (bs.foldl U7.take u).Taken (p ++ bs) ∧ (bs.foldl U7.take u).sch = u.sch ∧ (bs.foldl U7.take u).u5 = u.u5 := by
  induction bs generalizing u p with
  | nil => exact ⟨by rwa [List.append_nil], rfl, rfl⟩
  | cons b bs ih =>
    obtain ⟨ht, hs, h5⟩ := h.take b
    obtain ⟨ht', hs', h5'⟩ := ih ht
    exact ⟨by rwa [List.append_cons], hs'.trans hs, h5'.trans h5⟩

/-- What U7 has taken of a region, and what its U5 holds back, stand for the region so far. -/
theorem U7.Taken.foldl_feed {u : U7} {p : List Byte} (h : u.Taken p) (bs : List Byte) :
    ∃ q, (bs.foldl U7.feed u).Taken q ∧ (bs.foldl U7.feed u).sch = u.sch ∧
      q ++ (bs.foldl U7.feed u).u5.flush = p ++ unescape (u.u5.flush ++ bs) := by
  induction bs generalizing u p with
  | nil => exact ⟨p, h, rfl, by rw [List.append_nil]; exact congrArg (p ++ ·) (unescape_escHeld _).symm⟩
  | cons b bs ih =>
    have held : U7.Taken { u with u5 := u.u5.byte b } p := ⟨h.count, h.schema, h.payload, h.summed, h.low, h.high⟩
    obtain ⟨ht, hs, h5⟩ := held.foldl_take (U5.emitted u.u5.escPend b).1
    obtain ⟨q, hq, hqs, e⟩ := ih ht
    refine ⟨q, hq, hqs.trans hs, e.trans ?_⟩
    rw [h5, U5.flush_eq, U5.flush_eq, ← U5.emitted_unescape, List.append_assoc]; rfl

/-- U7 after its whole region has taken what the region unescapes to. -/
theorem U7.drain_taken {u : U7} (h : u.Taken []) (h5 : u.u5 = U5.start) :
    u.drain.Taken (unescape (slice u.rxbuf 2 (u.rxlen - 1))) ∧ u.drain.sch = u.sch := by
  obtain ⟨q, hq, hqs, e⟩ := h.foldl_feed (slice u.rxbuf 2 (u.rxlen - 1))
  obtain ⟨ht, hs, -⟩ := hq.foldl_take (List.foldl U7.feed u (slice u.rxbuf 2 (u.rxlen - 1))).u5.flush
  rw [e, h5] at ht
  exact ⟨ht, hs.trans hqs⟩

theorem U7.consistent_iff (u : U7) : u.consistent = true ↔
    u.rxlen = u.rxbuf.length ∧ u.cnt = 0 ∧ u.u5 = U5.start ∧ u.u1 = U1.start u.kind u.sch ∧ u.u3 = U3.start 0 := by
  simp [U7.consistent, and_assoc]

theorem U7.Taken.of_consistent {u : U7} (h : u.consistent = true) : u.Taken [] := by
  obtain ⟨-, hc, -, h1, h3⟩ := (U7.consistent_iff u).1 h
  have t := U7.start_taken u.kind u.sch
  exact ⟨hc, by rw [h1]; rfl, by rw [h1]; exact t.payload, by rw [h3]; exact t.summed, fun _ h => (nomatch h), fun _ h => (nomatch h)⟩

/-- The checksum test of U7 is that of `FRM.DEC`. -/
theorem U7.Taken.check_iff {u : U7} {raw : List Byte} (h : u.Taken raw) (hl : raw.length = numBytes u.sch + 2) :
    u.u3.check = 1 ↔ ~~~(wordSum (raw.take (numBytes u.sch))) = receivedChecksum (numBytes u.sch) raw := by
  have received : u.u3.rxck = receivedChecksum (numBytes u.sch) raw := by
    have hlo : raw[numBytes u.sch]? = some raw[numBytes u.sch] := List.getElem?_eq_getElem _
    have hhi : raw[numBytes u.sch + 1]? = some raw[numBytes u.sch + 1] := List.getElem?_eq_getElem _
    rw [receivedChecksum_eq_append hlo hhi, ← h.low _ hlo, ← h.high _ hhi, append_leBytes16]
  rw [U3.check, h.summed.check, checksum_eq_not, received]
  split_ifs with hck
  · exact iff_of_true rfl hck
  · exact iff_of_false (by decide) hck

/-- The outcome of a consistent U7 is that of `FRM.DEC` of the bytes it has stored (44_framing.md R93). -/
theorem U7.outcome_eq {u : U7} (h : u.consistent = true) : u.outcome = frameDecode u.sch u.rxbuf := by
  obtain ⟨hlen, -, h5, -, -⟩ := (U7.consistent_iff u).1 h
  obtain ⟨ht, hs⟩ := U7.drain_taken (.of_consistent h) h5
  rw [hlen] at ht
  have framed : (3 ≤ u.rxlen ∧ u.rxbuf.head? = some Config.delim ∧ u.rxbuf[u.rxlen - 1]? = some Config.delim) ↔ ¬ framingFails u.rxbuf := by
    rw [hlen, List.head?_eq_getElem?, framingFails]
    simp only [not_or, not_lt, not_not]
  by_cases hf : framingFails u.rxbuf
  · rw [frameDecode_of_framingFails _ hf]
    exact if_neg fun good => framed.1 good hf
  · refine (if_pos (framed.2 hf)).trans ?_
    have count : u.drain.cnt = (regionOf u.rxbuf).length := ht.count
    by_cases hl : (regionOf u.rxbuf).length = numBytes u.sch + 2
    · have hck := ht.check_iff (by rw [hs]; exact hl)
      rw [hs] at hck
      rw [frameDecode_of_length_eq hf hl]
      refine (if_pos (count.trans hl)).trans (if_congr hck ?_ rfl)
      have all : ((regionOf u.rxbuf).take (numBytes u.drain.sch)).length = numBytes u.drain.u1.sch := by
        rw [ht.schema, hs, List.length_take, hl]; omega
      have shadow := ht.payload.shadow_eq all
      rw [shadow, ht.schema, hs]; rfl
    · rw [frameDecode_of_length_ne hf hl]
      exact if_neg fun h => hl (count.symm.trans h)

theorem U7.start_consistent (k : PacketKind) (sch : Schema) : (U7.start k sch).consistent = true :=
  (U7.consistent_iff _).2 ⟨rfl, rfl, rfl, rfl, rfl⟩

theorem U7.byte_consistent {u : U7} (h : u.consistent = true) (b : Byte) : (u.byte b).consistent = true := by
  obtain ⟨hlen, hc, h5, h1, h3⟩ := (U7.consistent_iff u).1 h
  exact (U7.consistent_iff _).2 ⟨by rw [U7.byte, hlen, List.length_append]; rfl, hc, h5, h1, h3⟩

/-- U7 stores the bytes of its call. -/
theorem U7.foldl_byte (bs : List Byte) {u : U7} (h : u.consistent = true) :
    (bs.foldl U7.byte u).consistent = true ∧ (bs.foldl U7.byte u).rxbuf = u.rxbuf ++ bs ∧ (bs.foldl U7.byte u).sch = u.sch ∧
      (bs.foldl U7.byte u).kind = u.kind ∧ (bs.foldl U7.byte u).active = u.active := by
  induction bs generalizing u with
  | nil => exact ⟨h, (List.append_nil _).symm, rfl, rfl, rfl⟩
  | cons b bs ih =>
    obtain ⟨hc, hb, hs, hk, ha⟩ := ih (U7.byte_consistent h b)
    exact ⟨hc, by rw [List.foldl_cons, hb, List.append_cons]; rfl, hs, hk, ha⟩

/-- A call of U7 over a frame has the outcome of `FRM.DEC`. -/
theorem U7.outcome_of_call (k : PacketKind) (sch : Schema) (f : List Byte) :
    (f.foldl U7.byte (U7.start k sch)).outcome = frameDecode sch f := by
  obtain ⟨hc, hb, hs, -, -⟩ := U7.foldl_byte f (U7.start_consistent k sch)
  rw [U7.outcome_eq hc, hb, hs]; rfl

/-- Neither U7 nor the line has a part in what is delivered. -/
theorem State.deliver_of_call_u7 (s : State) (v : U7) (k : PacketKind) (r : FrameResult) :
    { State.deliver { s with u7 := v, pending := [] } k r with u7 := U7.idle } = { s.deliver k r with u7 := U7.idle, pending := [] } := by
  cases r <;> cases k <;> rfl

end Sys2Proof.Machine
end

section
/-! The statement about the serial parser. -/

namespace Sys2Proof.Machine

/-- Settles O55: a call of U7 stores the frame, and its outcome is that of `FRM.DEC`. -/
theorem serialParserRefinesFrmDec : Obligations.SerialParserRefinesFrmDec := by
  refine ⟨fun s => ⟨_, rfl, serial_u7.runsTo_call (a := U7.start .command commandSchema) rfl (fun _ => rfl) ?_⟩, fun s => ?_⟩
  · obtain ⟨-, -, -, hk, ha⟩ := U7.foldl_byte s.frame (U7.start_consistent .command commandSchema)
    refine (if_pos ha).trans (congrArg _ ((State.deliver_of_call_u7 s _ _ _).trans ?_))
    rw [U7.outcome_of_call, hk]; rfl
  · rw [U7.outcome_of_call]; rfl

end Sys2Proof.Machine
end

section
/-! SUPPORT. What an interaction can do, said once: `Move s t` when the caller's next interaction takes `s` to `t` (70_reset_and_hazards.md R127, R128),
with of U2 to U5 what their call leaves in them. -/

namespace Sys2Proof.Machine

/-- The next states of an interaction, by what it writes. -/
inductive Move (s : State) : State → Prop
  | operands (sch : Schema) (kind : PacketKind) (idx : Nat) (fix : GpsFix) (relay : Nat) (name : CommandName) (vals : ValuePorts)
      (fbytes : FieldBytes) (pay raw escr frame : List Byte) (rxck : Half) (count : Nat) (ck : Half) (reading evaluated : Rat)
      (status : Option Status) (matched : Option Bit) (pending : List Interaction) :
      Move s { s with
        sch := sch, kind := kind, idx := idx, fix := fix, relay := relay, name := name, vals := vals, fbytes := fbytes, pay := pay, raw := raw
        escr := escr, frame := frame, rxck := rxck, count := count, ck := ck, reading := reading, evaluated := evaluated, status := status
        matched := matched, pending := pending }
  | instr {i : Instr} {t : State} (p : List Interaction) (h : Effect { s with pending := p } i t) : Move s t
  | record (x : Record) (hx : schemaOfRecord x = s.schemaOf s.kind) : Move s (s.freshRecord s.kind x)
  | startU0 : Move s { s with u0 := U0.start s.kind (s.recordOf s.kind), loanU0 := true }
  | startU6 : Move s { s with u6 := U6.start .telemetry s.tlmRec, loanU6 := true }
  | stepU0 (ha : s.u0.active = true) : Move s s.advanceU0
  | stepU6 (ha : s.u6.active = true) : Move s s.advanceU6
  | startU1 : Move s { s with u1 := U1.start s.kind (s.schemaOf s.kind) }
  | byteU1 {b : Byte} {v : U1} (ha : s.u1.active = true) (hv : s.u1.byte b = some v) : Move s { s with u1 := v }
  | finishU1 (ha : s.u1.active = true) : Move s { s.freshRecord s.u1.kind s.u1.xs with u1 := U1.idle }
  | u2 (c : Half) (v : U2) (hv : v.active = true ∨ v = U2.idle) : Move s { s with ck := c, u2 := v }
  | u3 (m : Option Bit) (v : U3) (hv : v.sum.active = true ∨ v = U3.idle) : Move s { s with matched := m, u3 := v }
  | u4 (e : List Byte) (v : U4) : Move s { s with escr := e, u4 := v }
  | u5 (r : List Byte) (v : U5) (hv : v.active = true ∨ v = U5.idle) : Move s { s with raw := r, u5 := v }
  | startU7 : Move s { s with u7 := U7.start .command commandSchema }
  | byteU7 (b : Byte) (ha : s.u7.active = true) : Move s { s with u7 := s.u7.byte b }
  | finishU7 (ha : s.u7.active = true) : Move s { s.deliver s.u7.kind s.u7.outcome with u7 := U7.idle }

theorem Move.of_runDecoded {f : Format} {d : Decoded} {s t : State} (h : runDecoded f d s = .next t) : Move s t := by
  cases d with
  | instr i rest => exact .instr _ (.of_exec h)
  | reject r =>
    cases r with
    | empty => cases h; exact .operands ..
    | unassigned op => cases h
    | notWritten b => cases h

theorem Move.of_tick {u : RunUnit} {s t : State} (h : tick u s = .next t) : Move s t := by
  cases u with
  | u0 =>
    rcases tickU0_cases s with ⟨-, e⟩ | ⟨ha, e⟩
    · cases e.symm.trans h
    · cases e.symm.trans h; exact .stepU0 ha
  | u6 =>
    rcases tickU6_cases s with ⟨-, e⟩ | ⟨ha, e⟩
    · cases e.symm.trans h
    · cases e.symm.trans h; exact .stepU6 ha

theorem Move.of_startUnit {u : ByteUnit} {s t : State} (h : startUnit u s = .next t) : Move s t := by
  cases u <;> cases h
  · exact .startU1
  · exact .u2 _ _ (.inl rfl)
  · exact .u3 _ _ (.inl rfl)
  · exact .u4 _ _
  · exact .u5 _ _ (.inl rfl)
  · exact .startU7

/-- An event of a unit is in a call. -/
theorem next_of_inCall {c : Bool} {r : Result} {t : State} (h : (if c = true then r else .refused .outsideCall) = .next t) : c = true ∧ r = .next t := by
  cases c with
  | true => exact ⟨rfl, h⟩
  | false => cases h

theorem Move.of_byteUnit {u : ByteUnit} {b : Byte} {s t : State} (h : byteUnit u b s = .next t) : Move s t := by
  obtain ⟨ha, h⟩ := next_of_inCall h
  cases u with
  | u1 =>
    cases hv : s.u1.byte b with
    | none => simp [Machine.byteU1, hv] at h
    | some v =>
      have e : Machine.byteU1 b s = Host.Outcome.next { s with u1 := v } := by simp only [Machine.byteU1, hv]
      cases e.symm.trans h; exact .byteU1 ha hv
  | u2 => cases h; exact .u2 _ _ (.inl ha)
  | u3 => cases h; exact .u3 _ _ (.inl ha)
  | u4 => cases h; exact .u4 _ _
  | u5 => cases h; exact .u5 _ _ (.inl ha)
  | u7 => cases h; exact .byteU7 b ha

theorem Move.of_finishUnit {u : ByteUnit} {s t : State} (h : finishUnit u s = .next t) : Move s t := by
  obtain ⟨ha, h⟩ := next_of_inCall h
  cases u with
  | u1 =>
    by_cases hc : s.u1.complete = true
    · cases (if_pos hc).symm.trans h; exact .finishU1 ha
    · cases (if_neg hc).symm.trans h
  | u2 => cases h; exact .u2 _ _ (.inr rfl)
  | u3 => cases h; exact .u3 _ _ (.inr rfl)
  | u4 => cases h; exact .u4 _ _
  | u5 => cases h; exact .u5 _ _ (.inr rfl)
  | u7 => cases h; exact .finishU7 ha

theorem Move.of_interact {it : Interaction} {s t : State} (h : interact it s = .next t) : Move s t := by
  cases it with
  | fetch f bytes => exact .of_runDecoded h
  | handSchema tags =>
    cases hs : schemaOfTags tags with
    | none => simp [interact, handSchema, hs] at h
    | some sch =>
      have e : interact (.handSchema tags) s = .next { s with sch := sch } := by simp [interact, handSchema, hs]
      cases e.symm.trans h; exact .operands ..
  | handRecord x =>
    by_cases hx : schemaOfRecord x = s.schemaOf s.kind
    · cases (if_pos hx).symm.trans h; exact .record x hx
    · cases (if_neg hx).symm.trans h
  | handField n =>
    cases hi : fieldIndex n (s.layoutOf s.kind) with
    | none => simp [interact, handField, hi] at h
    | some i =>
      have e : interact (.handField n) s = .next { s with idx := i } := by simp [interact, handField, hi]
      cases e.symm.trans h; exact .operands ..
  | handNumber T z =>
    cases hv : encNumber T z with
    | none => simp [interact, handNumber, hv] at h
    | some v =>
      have e : interact (.handNumber T z) s = .next (s.setValue v) := by simp [interact, handNumber, hv]
      cases e.symm.trans h; exact .operands ..
  | handBuffer n bytes => cases n <;> cases h <;> exact .operands ..
  | startRun u =>
    cases u <;> cases h
    · exact .startU0
    · exact .startU6
  | tick u => exact .of_tick h
  | start u => exact .of_startUnit h
  | byte u b => exact .of_byteUnit h
  | finish u => exact .of_finishUnit h
  | _ => cases h; exact .operands ..

end Sys2Proof.Machine
end

section
/-! SUPPORT. Every interaction keeps the configuration and the invariant (20_memory.md R40, 70_reset_and_hazards.md R126, R132). -/

namespace Sys2Proof.Machine

theorem State.advanceU0_configuration (s : State) :
    s.advanceU0.tlmLayout = s.tlmLayout ∧ s.advanceU0.commandTable = s.commandTable := by
  rcases s.advanceU0_cases with ⟨b, u, -, e⟩ | ⟨-, e⟩ <;> rw [e] <;> exact ⟨rfl, rfl⟩

theorem State.advanceU6_configuration (s : State) :
    s.advanceU6.tlmLayout = s.tlmLayout ∧ s.advanceU6.commandTable = s.commandTable := by
  rcases s.advanceU6_cases with ⟨-, e⟩ | ⟨-, e⟩ <;> rw [e] <;> exact ⟨rfl, rfl⟩

theorem Move.configuration {s t : State} (h : Move s t) : t.tlmLayout = s.tlmLayout ∧ t.commandTable = s.commandTable := by
  cases h with
  | instr p h =>
    obtain ⟨-, hl, ht, -⟩ := h.sameOperands
    exact ⟨hl, ht⟩
  | stepU0 => exact s.advanceU0_configuration
  | stepU6 => exact s.advanceU6_configuration
  | record | finishU1 => exact ⟨State.freshRecord_tlmLayout .., State.freshRecord_commandTable ..⟩
  | finishU7 => exact ⟨State.deliver_tlmLayout .., State.deliver_commandTable ..⟩
  | _ => exact ⟨rfl, rfl⟩

theorem U1.consistent_of_some {u : U1} {T : FieldType} (h : u.sch[u.fi]? = some T) :
    u.consistent = true ↔ schemaOfRecord u.xs = u.sch ∧ u.sh >>> (8 * u.bi.toNat) = 0 ∧ u.bi.toNat < T.width := by
  simp [U1.consistent, h, and_assoc]

theorem U1.consistent_of_none {u : U1} (h : u.sch[u.fi]? = none) :
    u.consistent = true ↔ schemaOfRecord u.xs = u.sch ∧ u.sh >>> (8 * u.bi.toNat) = 0 ∧ u.fi = u.sch.length ∧ u.bi = 0 := by
  simp [U1.consistent, h, and_assoc]

theorem U1.typed_of_consistent {u : U1} (h : u.consistent = true) : schemaOfRecord u.xs = u.sch := by
  cases hT : u.sch[u.fi]? with
  | none => exact ((U1.consistent_of_none hT).1 h).1
  | some T => exact ((U1.consistent_of_some hT).1 h).1

/-- At the front of a field, or past the last one, U1 is consistent if its shadow set is typed. -/
theorem U1.consistent_of_field_start {u : U1} (hx : schemaOfRecord u.xs = u.sch) (hf : u.fi ≤ u.sch.length) (hb : u.bi = 0) (hs : u.sh = 0) :
    u.consistent = true := by
  have shifted : u.sh >>> (8 * u.bi.toNat) = 0 := by rw [hs, hb]; rfl
  cases hT : u.sch[u.fi]? with
  | none => exact (U1.consistent_of_none hT).2 ⟨hx, shifted, le_antisymm hf (List.getElem?_eq_none_iff.1 hT), hb⟩
  | some T => exact (U1.consistent_of_some hT).2 ⟨hx, shifted, hb ▸ T.width_pos⟩

theorem U1.start_consistent (k : PacketKind) (sch : Schema) : (U1.start k sch).consistent = true :=
  U1.consistent_of_field_start (by simp [U1.start, schemaOfRecord, Function.comp_def]) (Nat.zero_le _) rfl rfl

/-- A byte keeps U1 consistent, in a call, and at its schema. -/
theorem U1.byte_consistent {u v : U1} {b : Byte} (h : u.consistent = true) (hv : u.byte b = some v) :
    v.consistent = true ∧ v.active = u.active ∧ v.kind = u.kind ∧ v.sch = u.sch := by
  cases hT : u.sch[u.fi]? with
  | none => cases (U1.byte_none b hT).symm.trans hv
  | some T =>
    obtain ⟨hx, hs, hb⟩ := (U1.consistent_of_some hT).1 h
    obtain ⟨hlt, -⟩ := List.getElem?_eq_some_iff.1 hT
    by_cases hw : u.bi.toNat + 1 = T.width
    · obtain ⟨old, hold, hot⟩ : ∃ old, u.xs[u.fi]? = some old ∧ old.type = T := by
        rw [← hx, schemaOfRecord, List.getElem?_map, Option.map_eq_some_iff] at hT
        exact hT
      cases (U1.byte_completes b hT hw).symm.trans hv
      refine ⟨U1.consistent_of_field_start ?_ hlt rfl rfl, rfl, rfl, rfl⟩
      exact (schemaOfRecord_set hold ((fieldOfBits_type _ _).trans hot.symm)).trans hx
    · cases (U1.byte_inside b hT hw).symm.trans hv
      have hbn : (u.bi + 1).toNat = u.bi.toNat + 1 := toNat_succ_of_lt (by omega) T.width_le_four
      refine ⟨(U1.consistent_of_some (u := { u with bi := u.bi + 1, sh := setShiftByte u.sh u.bi b }) hT).2 ⟨hx, ?_, ?_⟩, rfl, rfl, rfl⟩
      · show setShiftByte u.sh u.bi b >>> (8 * (u.bi + 1).toNat) = 0
        rw [hbn]; exact setShiftByte_above hs b
      · show (u.bi + 1).toNat < T.width
        omega

theorem schemaOfCall_self (s : State) (k : PacketKind) : schemaOfCall s k (s.schemaOf k) = true := by
  cases k <;> simp [schemaOfCall]

namespace State.Inv

variable {s : State}

/-- A typed Record may take the place of one that is not on loan any more. -/
theorem setRecord (h : s.Inv) {k : PacketKind} {x : Record} (hx : schemaOfCall s k (schemaOfRecord x) = true) {l0 l6 : Bool}
    (h0 : l0 = true → s.loanU0 = true ∧ s.u0.kind ≠ k) (h6 : l6 = true → s.loanU6 = true ∧ s.u6.kind ≠ k) :
    State.Inv { s.setRecord k x with loanU0 := l0, loanU6 := l6 } := by
  have loanU0 : l0 = true → s.u0.active = true ∧ s.u0.record = (s.setRecord k x).recordOf s.u0.kind := fun hl => by
    obtain ⟨hs, hk⟩ := h0 hl
    rw [State.recordOf_setRecord_other s x hk]
    exact h.loanU0 hs
  have loanU6 : l6 = true → s.u6.active = true ∧ s.u6.u0.record = (s.setRecord k x).recordOf s.u6.kind := fun hl => by
    obtain ⟨hs, hk⟩ := h6 hl
    rw [State.recordOf_setRecord_other s x hk]
    exact h.loanU6 hs
  cases k with
  | command => exact { h with cmdTyped := beq_iff_eq.1 hx, loanU0 := loanU0, loanU6 := loanU6 }
  | telemetry => exact { h with tlmTyped := beq_iff_eq.1 hx, loanU0 := loanU0, loanU6 := loanU6 }
  | generic => exact { h with loanU0 := loanU0, loanU6 := loanU6 }

theorem freshRecord (h : s.Inv) {k : PacketKind} {x : Record} (hx : schemaOfCall s k (schemaOfRecord x) = true) : (s.freshRecord k x).Inv :=
  h.setRecord hx (by simp) (by simp)

/-- A register of the Record is written only while the Record is not on loan. -/
theorem register (h : s.Inv) {old v : FieldValue} {k : PacketKind} {i : Nat} (hold : (s.recordOf k)[i]? = some old) (hv : v.type = old.type)
    (hl : s.lent k = false) : (s.setRecord k ((s.recordOf k).set i v)).Inv := by
  obtain ⟨h0, h6⟩ : (s.loanU0 = true → s.u0.kind ≠ k) ∧ (s.loanU6 = true → s.u6.kind ≠ k) := by simpa [State.lent] using hl
  have typed : schemaOfCall s k (schemaOfRecord ((s.recordOf k).set i v)) = true := by
    rw [schemaOfRecord_set hold hv]
    cases k with
    | command => exact beq_iff_eq.2 h.cmdTyped
    | telemetry => exact beq_iff_eq.2 h.tlmTyped
    | generic => rfl
  have := h.setRecord typed (fun l => ⟨l, h0 l⟩) (fun l => ⟨l, h6 l⟩)
  cases k <;> exact this

theorem deliver (h : s.Inv) {k : PacketKind} {r : FrameResult} (hr : ∀ x, r = .ok x → schemaOfCall s k (schemaOfRecord x) = true) :
    (s.deliver k r).Inv := by
  cases r with
  | err e => exact { h with }
  | ok x => exact { h.freshRecord (hr x rfl) with }

theorem effect {i : Instr} {t : State} (h : s.Inv) (he : Effect s i t) : t.Inv := by
  cases he with
  | fresh x hi hx => exact h.freshRecord (hx ▸ schemaOfCall_self s s.kind)
  | register hold hl => exact h.register hold (ValuePorts.type_get _ _) hl
  | decode k hi => exact h.deliver fun x hx => frameDecode_schema hx ▸ schemaOfCall_self s k
  | _ => exact { h with }

theorem advanceU0 (h : s.Inv) (ha : s.u0.active = true) : s.advanceU0.Inv := by
  have hu : s.u0.consistent = true := (if_pos ha).mp h.u0
  rcases U0.next_cases hu with ⟨b, w, hn, hw, -, hwa, hk, hr⟩ | ⟨hn, -, -⟩
  · rw [State.advanceU0_of_some hn]
    exact { h with
      u0 := by rw [if_pos (hwa.trans ha)]; exact hw
      loanU0 := fun hl => ⟨hwa.trans ha, by show w.record = s.recordOf w.kind; rw [hr, hk]; exact (h.loanU0 hl).2⟩ }
  · rw [State.advanceU0_of_none hn]
    exact { h with u0 := rfl, loanU0 := nofun }

theorem advanceU6 (h : s.Inv) (ha : s.u6.active = true) : s.advanceU6.Inv := by
  obtain ⟨hu, hk⟩ := (if_pos ha).mp h.u6
  by_cases hs : s.u6.stage = .done
  · rw [State.advanceU6_of_done hs]
    exact { h with u6 := rfl, loanU6 := nofun }
  · obtain ⟨hn, -, hna, hnk, hnr⟩ := U6.next_progress hu hs
    rw [State.advanceU6_of_ne_done hs]
    exact { h with
      u6 := by rw [if_pos (hna.trans ha)]; exact ⟨hn, hnk.trans hk⟩
      loanU6 := fun hl => ⟨hna.trans ha, by
        show s.u6.next.u0.record = s.recordOf s.u6.next.kind
        rw [hnr, hnk]; exact (h.loanU6 hl).2⟩ }

theorem runU0 (h : s.Inv) : s.runU0.Inv := by
  unfold State.runU0
  split_ifs with ha
  · exact h.advanceU0 ha
  · exact h

theorem runU6 (h : s.Inv) : s.runU6.Inv := by
  unfold State.runU6
  split_ifs with ha
  · exact h.advanceU6 ha
  · exact h

theorem runUnits (h : s.Inv) : s.runUnits.Inv :=
  h.runU0.runU6

/-- Every interaction keeps the invariant. -/
theorem move {t : State} (h : s.Inv) (hm : Move s t) : t.Inv := by
  cases hm with
  | operands => exact { h with }
  | instr p he => exact State.Inv.effect (s := { s with pending := p }) { h with } he
  | record x hx => exact h.freshRecord (hx ▸ schemaOfCall_self s s.kind)
  | startU0 => exact { h with u0 := U0.start_consistent _ _, loanU0 := fun _ => ⟨rfl, rfl⟩ }
  | startU6 => exact { h with u6 := ⟨U6.start_consistent _ _, rfl⟩, loanU6 := fun _ => ⟨rfl, rfl⟩ }
  | stepU0 ha => exact h.advanceU0 ha
  | stepU6 ha => exact h.advanceU6 ha
  | startU1 => exact { h with u1 := ⟨U1.start_consistent _ _, schemaOfCall_self s s.kind⟩ }
  | @byteU1 b v ha hv =>
    obtain ⟨hc, hs⟩ := (if_pos ha).mp h.u1
    obtain ⟨hvc, hva, hvk, hvs⟩ := U1.byte_consistent hc hv
    exact { h with u1 := by rw [if_pos (hva.trans ha)]; exact ⟨hvc, by rw [hvk, hvs]; exact hs⟩ }
  | finishU1 ha =>
    obtain ⟨hc, hs⟩ := (if_pos ha).mp h.u1
    exact { h.freshRecord (U1.typed_of_consistent hc ▸ hs) with u1 := rfl }
  | u2 c v hv => exact { h with u2 := hv }
  | u3 m v hv => exact { h with u3 := hv }
  | u4 e v => exact { h with }
  | u5 r v hv => exact { h with u5 := hv }
  | startU7 => exact { h with u7 := ⟨U7.start_consistent _ _, rfl, rfl⟩ }
  | byteU7 b ha =>
    obtain ⟨hc, hk, hs⟩ := (if_pos ha).mp h.u7
    exact { h with u7 := (if_pos (show (s.u7.byte b).active = true from ha)).mpr ⟨U7.byte_consistent hc b, hk, hs⟩ }
  | finishU7 ha =>
    obtain ⟨hc, hk, hs⟩ := (if_pos ha).mp h.u7
    have typed : ∀ x, s.u7.outcome = .ok x → schemaOfCall s s.u7.kind (schemaOfRecord x) = true := fun x hx => by
      rw [U7.outcome_eq hc] at hx
      rw [frameDecode_schema hx, hk, hs]; rfl
    exact { h.deliver typed with u7 := rfl }

end State.Inv

end Sys2Proof.Machine
end

section
/-! The statements about every step: the invariant, the configuration. -/

namespace Sys2Proof.Machine

/-- Settles O34: the units run on or one interaction is performed, and both keep the invariant. -/
theorem stepKeepsInvariant : Obligations.StepKeepsInvariant := by
  intro s t hs h
  rw [inv_iff] at hs ⊢
  cases hp : s.pending with
  | nil => cases (step_alone hp).symm.trans h; exact hs.runUnits
  | cons it rest => exact State.Inv.move (s := { s with pending := rest }) { hs with } (.of_interact ((step_interact hp).symm.trans h))

theorem step_configuration {s t : State} (h : step s = .next t) : t.tlmLayout = s.tlmLayout ∧ t.commandTable = s.commandTable := by
  cases hp : s.pending with
  | nil =>
    cases (step_alone hp).symm.trans h
    obtain ⟨p, f, u, v, l, m, e⟩ := s.runUnits_frame
    rw [e]; exact ⟨rfl, rfl⟩
  | cons it rest => exact (Move.of_interact ((step_interact hp).symm.trans h)).configuration

/-- Settles O35: the concrete schemas are constants or of the layout, and no interaction writes the layout or the table. -/
theorem configurationNeverChanges : Obligations.ConfigurationNeverChanges := by
  refine ⟨fun s t h => ?_, fun i s t h k => (Effect.of_exec h).schemaOf k⟩
  obtain ⟨hl, ht⟩ := step_configuration h
  refine ⟨hl, ht, fun k hk => ?_⟩
  cases k with
  | command => rfl
  | telemetry => exact congrArg schemaOfLayout hl
  | generic => exact absurd rfl hk

end Sys2Proof.Machine
end

section
/-! SUPPORT. A byte for a unit reads and writes that unit's own registers alone (20_memory.md R38): `ByteUnit.put` says which they are. -/

namespace Sys2Proof.Machine

/-- The state `s` with the registers of a unit as they are in `r`. -/
def ByteUnit.put (u : ByteUnit) (r s : State) : State :=
  match u with
  | .u1 => { s with u1 := r.u1 }
  | .u2 => { s with u2 := r.u2 }
  | .u3 => { s with u3 := r.u3 }
  | .u4 => { s with u4 := r.u4 }
  | .u5 => { s with u5 := r.u5 }
  | .u7 => { s with u7 := r.u7 }

namespace ByteUnit

theorem put_self (u : ByteUnit) (s : State) : u.put s s = s := by cases u <;> rfl

theorem put_comm {u v : ByteUnit} (h : u ≠ v) (q r s : State) : u.put q (v.put r s) = v.put r (u.put q s) := by
  cases u <;> cases v <;> first | rfl | exact absurd rfl h

/-- The registers of one unit are the same whatever those of another are. -/
theorem put_put_other {u v : ByteUnit} (h : u ≠ v) (r s : State) : v.put (u.put r s) s = s := by
  cases u <;> cases v <;> first | rfl | exact absurd rfl h

theorem put_pending (u : ByteUnit) (r s : State) (p : List Interaction) : { u.put r s with pending := p } = u.put r { s with pending := p } := by
  cases u <;> rfl

theorem put_self_pending (u : ByteUnit) (s : State) (p : List Interaction) : u.put s { s with pending := p } = { s with pending := p } := by
  cases u <;> rfl

end ByteUnit

/-- A byte completes with the same registers of its unit whatever else is in the state. -/
theorem byteUnit_put {u : ByteUnit} {b : Byte} {s r : State} (h : byteUnit u b s = .next r) (q : State) :
    byteUnit u b (u.put s q) = .next (u.put r q) := by
  obtain ⟨ha, h⟩ := next_of_inCall h
  cases u with
  | u1 =>
    cases hv : s.u1.byte b with
    | none => simp [byteU1, hv] at h
    | some v =>
      have e : byteU1 b s = .next { s with u1 := v } := by simp only [byteU1, hv]
      cases e.symm.trans h
      exact byteUnit_u1_of_some (s := { q with u1 := s.u1 }) ha hv
  | u2 | u3 | u4 | u5 | u7 => cases h; exact if_pos ha

/-- A byte writes the registers of its unit alone. -/
theorem eq_put_of_byteUnit {u : ByteUnit} {b : Byte} {s r : State} (h : byteUnit u b s = .next r) : r = u.put r s := by
  have := byteUnit_put h s
  rw [ByteUnit.put_self] at this
  exact Host.Outcome.next.inj (h.symm.trans this)

/-- A byte does not depend on what is lined up. -/
theorem byteUnit_pending {u : ByteUnit} {b : Byte} {s r : State} (h : byteUnit u b s = .next r) (p : List Interaction) :
    byteUnit u b { s with pending := p } = .next { r with pending := p } := by
  have := byteUnit_put h { s with pending := p }
  rwa [ByteUnit.put_self_pending, ← ByteUnit.put_pending, ← eq_put_of_byteUnit h] at this

/-- Two bytes for different units complete in either order with the same state. -/
theorem byteUnit_comm {u v : ByteUnit} {b c : Byte} (huv : u ≠ v) {s r t : State} (hu : byteUnit u b s = .next r)
    (hv : byteUnit v c r = .next t) : ∃ q, byteUnit v c s = .next q ∧ byteUnit u b q = .next t := by
  have hr : r = u.put r s := eq_put_of_byteUnit hu
  have ht : t = v.put t r := eq_put_of_byteUnit hv
  refine ⟨v.put t s, ?_, ?_⟩
  · have := byteUnit_put hv s
    rwa [hr, ByteUnit.put_put_other huv] at this
  · have := byteUnit_put hu (v.put t s)
    rwa [ByteUnit.put_comm huv, ByteUnit.put_comm huv, ByteUnit.put_self, ← hr, ← ht] at this

theorem stepTimes_succ_eq_next {k : Nat} {s t : State} : stepTimes (k + 1) s = .next t ↔ ∃ r, step s = .next r ∧ stepTimes k r = .next t := by
  cases h : step s with
  | next r => simp [stepTimes_next h]
  | fault f => simp [stepTimes, h]
  | refused r => simp [stepTimes, h]

/-- Two bytes lined up are two bytes performed one after the other. -/
theorem runsTo_two_bytes {s t : State} {u v : ByteUnit} {b c : Byte} :
    runsTo s 2 [.byte u b, .byte v c] t ↔
      ∃ r, byteUnit u b { s with pending := [] } = .next r ∧ byteUnit v c r = .next t := by
  rw [runsTo, stepTimes_succ_eq_next]
  constructor
  · rintro ⟨r, hr, ht⟩
    obtain ⟨w, hw, e⟩ := stepTimes_succ_eq_next.1 ht
    cases e
    have first := (step_byte rfl).symm.trans hr
    refine ⟨{ r with pending := [] }, byteUnit_pending first [], ?_⟩
    have line : r.pending = [.byte v c] := by
      rw [eq_put_of_byteUnit first]
      exact congrArg State.pending (ByteUnit.put_pending u r _ [.byte v c]).symm
    exact (step_byte line).symm.trans hw
  · rintro ⟨r, hr, ht⟩
    have alone : { r with pending := [] } = r := by
      rw [eq_put_of_byteUnit hr]
      exact ByteUnit.put_pending u r { s with pending := [] } []
    refine ⟨{ r with pending := [.byte v c] }, (step_byte rfl).trans (byteUnit_pending hr _), ?_⟩
    exact stepTimes_succ_eq_next.2 ⟨t, (step_byte rfl).trans ((congrArg (byteUnit v c) alone).trans ht), rfl⟩

end Sys2Proof.Machine
end

section
/-! The statement about units of different operations. -/

namespace Sys2Proof.Machine

/-- Settles O56: a byte for a unit is of that unit's registers alone, and two of different units change places. -/
theorem unitsDoNotInteract : Obligations.UnitsDoNotInteract := by
  intro s t u v b c huv h
  obtain ⟨r, hu, hv⟩ := runsTo_two_bytes.1 h
  exact runsTo_two_bytes.2 (byteUnit_comm huv hu hv)

end Sys2Proof.Machine
end

section
/-! SUPPORT. binary32 (40_field_types.md R55, log 12): a rational equals a datum exactly if its absolute value is `m * 2^e` with a significand of 24 bits, and
`encBinary32` finds that `m` and `e`. -/

namespace Sys2Proof.Machine

/-- `|q| = m * 2^e` with `m` and `e` as a finite binary32 datum has them: 24 bits, and fewer at the least exponent alone. -/
structure Binary32Form (q : Rat) (m : Nat) (e : Int) : Prop where
  abs : |q| = m * 2 ^ e
  lt : m < 2 ^ 24
  least : -149 ≤ e
  normal : m < 2 ^ 23 → e = -149

theorem abs_eq_natAbs_mul_zpow {q : Rat} {k : Nat} (hk : q.den = 2 ^ k) : |q| = q.num.natAbs * (2 : Rat) ^ (-k : Int) := by
  conv_lhs => rw [← Rat.num_div_den q, hk]
  rw [abs_div, Nat.cast_natAbs, Int.cast_abs, zpow_neg, zpow_natCast, ← div_eq_mul_inv]
  simp

/-- The binary exponent of a rational whose denominator is a power of two. -/
theorem abs_zpow_bounds {q : Rat} {k : Nat} (hk : q.den = 2 ^ k) (h0 : q.num.natAbs ≠ 0) :
    (2 : Rat) ^ ((q.num.natAbs.log2 : Int) - k) ≤ |q| ∧ |q| < (2 : Rat) ^ ((q.num.natAbs.log2 : Int) - k + 1) := by
  have lo : (2 : Rat) ^ q.num.natAbs.log2 ≤ q.num.natAbs := by exact_mod_cast Nat.log2_self_le h0
  have hi : (q.num.natAbs : Rat) < 2 ^ (q.num.natAbs.log2 + 1) := by exact_mod_cast Nat.lt_log2_self
  have pos : (0 : Rat) < 2 ^ (-k : Int) := by positivity
  rw [abs_eq_natAbs_mul_zpow hk, sub_eq_add_neg, zpow_add₀ two_ne_zero, add_right_comm, zpow_add₀ two_ne_zero, zpow_natCast]
  refine ⟨mul_le_mul_of_nonneg_right lo pos.le, mul_lt_mul_of_pos_right ?_ pos⟩
  rw [zpow_add_one₀ two_ne_zero, zpow_natCast, ← pow_succ]
  exact hi

/-- The exponent that `encBinary32` takes is the one of the form. -/
theorem Binary32Form.exponent {q : Rat} {m : Nat} {e : Int} (h : Binary32Form q m e) {k : Nat} (hk : q.den = 2 ^ k) (h0 : q.num.natAbs ≠ 0) :
    max (-149) ((q.num.natAbs.log2 : Int) - k - 23) = e := by
  obtain ⟨lo, hi⟩ := abs_zpow_bounds hk h0
  have pos : (0 : Rat) < 2 ^ e := by positivity
  have below : ∀ j : Nat, m < 2 ^ j → (q.num.natAbs.log2 : Int) - k < j + e := fun j hj => by
    have : (m : Rat) < 2 ^ j := by exact_mod_cast hj
    refine (zpow_lt_zpow_iff_right₀ (one_lt_two : (1 : Rat) < 2)).1 (lo.trans_lt ?_)
    rw [h.abs, zpow_add₀ two_ne_zero, zpow_natCast]
    exact mul_lt_mul_of_pos_right this pos
  by_cases hm : m < 2 ^ 23
  · have := below 23 hm
    have := h.normal hm
    omega
  · have above : (23 : Int) + e < (q.num.natAbs.log2 : Int) - k + 1 := by
      have : (2 : Rat) ^ 23 ≤ m := by exact_mod_cast Nat.not_lt.1 hm
      refine (zpow_lt_zpow_iff_right₀ (one_lt_two : (1 : Rat) < 2)).1 (lt_of_le_of_lt ?_ hi)
      rw [h.abs, zpow_add₀ two_ne_zero]
      exact mul_le_mul_of_nonneg_right (by exact_mod_cast this) pos.le
    have := below 24 h.lt
    have := h.least
    omega

/-- The significand at the exponent that `encBinary32` takes. -/
theorem Binary32Form.of_abs {q : Rat} {m k : Nat} {e : Int} (hk : q.den = 2 ^ k) (h0 : q.num.natAbs ≠ 0) (ha : |q| = m * 2 ^ e)
    (he : max (-149) ((q.num.natAbs.log2 : Int) - k - 23) = e) : Binary32Form q m e := by
  obtain ⟨lo, hi⟩ := abs_zpow_bounds hk h0
  have pos : (0 : Rat) < 2 ^ e := by positivity
  refine ⟨ha, ?_, by omega, fun hm => ?_⟩
  · have : (m : Rat) * 2 ^ e < 2 ^ (24 : Int) * 2 ^ e := by
      rw [← ha, ← zpow_add₀ two_ne_zero]
      exact hi.trans_le (zpow_le_zpow_right₀ one_le_two (by omega))
    exact_mod_cast lt_of_mul_lt_mul_right this pos.le
  · by_contra hne
    have : (2 : Rat) ^ (23 : Int) * 2 ^ e ≤ m * 2 ^ e := by
      rw [← ha, ← zpow_add₀ two_ne_zero]
      exact (zpow_le_zpow_right₀ one_le_two (by omega)).trans lo
    have : 2 ^ 23 ≤ m := by exact_mod_cast le_of_mul_le_mul_right this pos
    omega

/-- A multiple of 2^-149 has a power of two as its denominator. -/
theorem den_of_scaled {q : Rat} {n : Int} (h : q * 2 ^ 149 = n) : q.den = 2 ^ q.den.log2 := by
  have hq : q = Rat.divInt n ((2 ^ 149 : Nat) : Int) := by
    rw [Rat.divInt_eq_div, ← h, Int.cast_natCast, Nat.cast_pow, Nat.cast_ofNat, mul_div_cancel_right₀ _ (by positivity)]
  have dvd : q.den ∣ 2 ^ 149 := by
    rw [hq]
    exact Int.natCast_dvd_natCast.1 (Rat.den_dvd _ _)
  obtain ⟨j, -, hj⟩ := (Nat.dvd_prime_pow Nat.prime_two).1 dvd
  rw [hj, Nat.log2_two_pow]

/-- The significand of `n * 2^-k` at the exponent `e`, where `e` is not above `-k`. -/
theorem significand_of_nonneg {n m k : Nat} {e : Int} (he : 0 ≤ -(k : Int) - e) :
    n * 2 ^ (-(k : Int) - e).toNat = m ↔ (n : Rat) * 2 ^ (-k : Int) = m * 2 ^ e := by
  have split : (n : Rat) * 2 ^ (-k : Int) = (n * 2 ^ (-(k : Int) - e).toNat : Nat) * 2 ^ e := by
    rw [Nat.cast_mul, Nat.cast_pow, Nat.cast_ofNat, ← zpow_natCast 2 (Int.toNat _), Int.toNat_of_nonneg he, mul_assoc,
      ← zpow_add₀ two_ne_zero, sub_add_cancel]
  rw [split, mul_left_inj' (by positivity)]
  exact Nat.cast_inj.symm

/-- The significand of `n * 2^-k` at the exponent `e`, where `e` is above `-k`. -/
theorem significand_of_neg {n m k : Nat} {e : Int} (he : -(k : Int) - e < 0) :
    n = m * 2 ^ (-(-(k : Int) - e)).toNat ↔ (n : Rat) * 2 ^ (-k : Int) = m * 2 ^ e := by
  have split : (m : Rat) * 2 ^ e = (m * 2 ^ (-(-(k : Int) - e)).toNat : Nat) * 2 ^ (-k : Int) := by
    rw [Nat.cast_mul, Nat.cast_pow, Nat.cast_ofNat, ← zpow_natCast 2 (Int.toNat _), Int.toNat_of_nonneg (by omega), mul_assoc,
      ← zpow_add₀ two_ne_zero]
    congr 2; omega
  rw [split, mul_left_inj' (by positivity)]
  exact Nat.cast_inj.symm

/-- `encBinary32` finds the form of a number that is not zero, if it has one. -/
theorem encBinary32_eq_some_iff {q : Rat} {w : Word} (h0 : q.num.natAbs ≠ 0) :
    encBinary32 q = some w ↔ q.den = 2 ^ q.den.log2 ∧ ∃ m e, Binary32Form q m e ∧ binary32Bits (decide (q.num < 0)) m e = some w := by
  by_cases hk : q.den = 2 ^ q.den.log2
  · have found : ∀ m e, Binary32Form q m e ↔
        e = max (-149) ((q.num.natAbs.log2 : Int) - q.den.log2 - 23) ∧ (q.num.natAbs : Rat) * 2 ^ (-q.den.log2 : Int) = m * 2 ^ e := fun m e =>
      ⟨fun h => ⟨(h.exponent hk h0).symm, (abs_eq_natAbs_mul_zpow hk).symm.trans h.abs⟩,
        fun h => .of_abs hk h0 ((abs_eq_natAbs_mul_zpow hk).trans h.2) h.1.symm⟩
    simp only [encBinary32, if_neg h0, ne_eq, ← hk, not_true_eq_false, if_false, true_and, found, and_assoc, exists_eq_left]
    split_ifs with hup hmod
    · simp only [← significand_of_nonneg hup, exists_eq_left']
    all_goals simp only [← significand_of_neg (not_le.1 hup)]
    · constructor
      · exact fun h => ⟨_, (Nat.div_mul_cancel (Nat.dvd_of_mod_eq_zero hmod)).symm, h⟩
      · rintro ⟨m, hm, h⟩
        rwa [Nat.div_eq_of_eq_mul_left (by positivity) hm]
    · constructor
      · nofun
      · rintro ⟨m, hm, -⟩
        exact absurd (Nat.mod_eq_zero_of_dvd (Dvd.intro_left m hm.symm)) hmod
  · simp [encBinary32, h0, hk]

/-- The sign, the exponent and the fraction field of a pattern put together from them. -/
theorem binary32_fields (s : Bool) {x : Nat} (hx : x < 2 ^ 31) {w : Word} (hw : w = (if s = true then 0x80000000 else 0) ||| BitVec.ofNat 32 x) :
    w.getLsbD 31 = s ∧ (w.extractLsb' 23 8).toNat = x / 2 ^ 23 ∧ (w.extractLsb' 0 23).toNat = x % 2 ^ 23 := by
  have pattern : w.toNat = 2 ^ 31 * s.toNat + x := by
    have small : x % 2 ^ 32 = x := Nat.mod_eq_of_lt (by omega)
    rw [hw, BitVec.toNat_or, BitVec.toNat_ofNat, small, Nat.two_pow_add_eq_or_of_lt hx]
    cases s <;> rfl
  have := s.toNat_le
  refine ⟨?_, ?_, ?_⟩
  · rw [BitVec.getLsbD, pattern, Nat.testBit_eq_decide_div_mod_eq]
    cases s <;> simp <;> omega
  · rw [BitVec.extractLsb'_toNat, pattern, Nat.shiftRight_eq_div_pow]; omega
  · rw [BitVec.extractLsb'_toNat, pattern, Nat.shiftRight_zero]; omega

/-- The number of a datum, by its exponent field: none, a subnormal number or a normal one. -/
theorem binary32Value_cases (w : Word) :
    ((w.extractLsb' 23 8).toNat = 255 ∧ binary32Value w = none) ∨
    ((w.extractLsb' 23 8).toNat = 0 ∧
      binary32Value w = some ((if w.getLsbD 31 = true then (-1 : Rat) else 1) * (w.extractLsb' 0 23).toNat * 2 ^ (-149 : Int))) ∨
    ((w.extractLsb' 23 8).toNat ≠ 255 ∧ (w.extractLsb' 23 8).toNat ≠ 0 ∧
      binary32Value w = some ((if w.getLsbD 31 = true then (-1 : Rat) else 1) * (2 ^ 23 + (w.extractLsb' 0 23).toNat : Nat) *
        2 ^ (((w.extractLsb' 23 8).toNat : Int) - 150))) := by
  by_cases h255 : (w.extractLsb' 23 8).toNat = 255
  · exact .inl ⟨h255, if_pos h255⟩
  · by_cases h0 : (w.extractLsb' 23 8).toNat = 0
    · exact .inr (.inl ⟨h0, (if_neg h255).trans (if_pos h0)⟩)
    · exact .inr (.inr ⟨h255, h0, (if_neg h255).trans (if_neg h0)⟩)

/-- The pattern of `m * 2^e` has that number as its value. -/
theorem binary32Value_of_bits {s : Bool} {m : Nat} {e : Int} {w : Word} (hm : m < 2 ^ 24) (he : -149 ≤ e) (hn : m < 2 ^ 23 → e = -149)
    (h : binary32Bits s m e = some w) : binary32Value w = some ((if s = true then (-1 : Rat) else 1) * m * 2 ^ e) := by
  by_cases hs : m < 2 ^ 23
  · obtain ⟨hsign, hexp, hfrac⟩ := binary32_fields s (by omega) (Option.some.inj ((if_pos hs).symm.trans h)).symm
    rw [Nat.div_eq_of_lt hs] at hexp
    rw [Nat.mod_eq_of_lt hs] at hfrac
    rcases binary32Value_cases w with ⟨hc, -⟩ | ⟨-, hv⟩ | ⟨-, hc, -⟩
    · omega
    · rw [hv, hsign, hfrac, hn hs]
    · exact absurd hexp hc
  · replace h := (if_neg hs).symm.trans h
    by_cases hr : e + 150 ≤ 254
    · obtain ⟨E, hE⟩ : ∃ E : Nat, e + 150 = E := ⟨(e + 150).toNat, by omega⟩
      obtain ⟨f, rfl⟩ : ∃ f, m = 2 ^ 23 + f := ⟨m - 2 ^ 23, by omega⟩
      have hx : (e + 150).toNat * 2 ^ 23 + (2 ^ 23 + f - 2 ^ 23) = E * 2 ^ 23 + f := by omega
      obtain ⟨hsign, hexp, hfrac⟩ := binary32_fields s (by omega) (Option.some.inj ((if_pos hr).symm.trans h)).symm
      rw [hx, show (E * 2 ^ 23 + f) / 2 ^ 23 = E by omega] at hexp
      rw [hx, show (E * 2 ^ 23 + f) % 2 ^ 23 = f by omega] at hfrac
      rcases binary32Value_cases w with ⟨hc, -⟩ | ⟨hc, -⟩ | ⟨-, -, hv⟩
      · omega
      · omega
      · rw [hv, hsign, hexp, hfrac, show e = E - 150 by omega]
    · cases (if_neg hr).symm.trans h

/-- A finite datum has a form that its exponent field has room for. -/
theorem Binary32Form.of_value {w : Word} {q : Rat} (h : binary32Value w = some q) :
    ∃ m e, Binary32Form q m e ∧ (m < 2 ^ 23 ∨ e + 150 ≤ 254) := by
  have size : ∀ (b : Bool) (m : Nat) (e : Int), |(if b = true then (-1 : Rat) else 1) * m * 2 ^ e| = m * 2 ^ e := fun b m e => by
    rw [abs_mul, abs_mul, Nat.abs_cast, abs_of_pos (show (0 : Rat) < 2 ^ e by positivity)]
    cases b <;> simp
  have hE := (w.extractLsb' 23 8).isLt
  have hf := (w.extractLsb' 0 23).isLt
  rcases binary32Value_cases w with ⟨-, hv⟩ | ⟨-, hv⟩ | ⟨h255, h0, hv⟩
  · cases hv.symm.trans h
  · cases hv.symm.trans h
    exact ⟨_, _, ⟨size _ _ _, by omega, le_rfl, fun _ => rfl⟩, .inl hf⟩
  · cases hv.symm.trans h
    exact ⟨_, _, ⟨size _ _ _, by omega, by omega, by omega⟩, .inr (by omega)⟩

theorem encBinary32_of_zero {q : Rat} (h : q.num.natAbs = 0) : encBinary32 q = some 0 := if_pos h

/-- The pattern `encBinary32` gives has the number as its value. -/
theorem binary32Value_of_encBinary32 {q : Rat} {w : Word} (h : encBinary32 q = some w) : binary32Value w = some q := by
  by_cases h0 : q.num.natAbs = 0
  · obtain rfl : q = 0 := Rat.num_eq_zero.1 (Int.natAbs_eq_zero.1 h0)
    obtain rfl : w = 0 := Option.some.inj (h.symm.trans (encBinary32_of_zero h0))
    simp [binary32Value]
  · obtain ⟨-, m, e, hf, hb⟩ := (encBinary32_eq_some_iff h0).1 h
    rw [binary32Value_of_bits hf.lt hf.least hf.normal hb, mul_assoc, ← hf.abs]
    by_cases hq : q < 0
    · simp [hq, abs_of_neg hq]
    · simp [hq, abs_of_nonneg (not_lt.1 hq)]

/-- A number that is the value of a datum has a pattern. -/
theorem encBinary32_of_binary32Value {q : Rat} {w : Word} (h : binary32Value w = some q) : ∃ v, encBinary32 q = some v := by
  by_cases h0 : q.num.natAbs = 0
  · exact ⟨0, encBinary32_of_zero h0⟩
  · obtain ⟨n, hn⟩ := binary32Value_scaled h
    obtain ⟨m, e, hf, room⟩ := Binary32Form.of_value h
    have bits : ∃ v, binary32Bits (decide (q.num < 0)) m e = some v := by
      by_cases hm : m < 2 ^ 23
      · exact ⟨_, if_pos hm⟩
      · exact ⟨_, (if_neg hm).trans (if_pos (room.resolve_left hm))⟩
    obtain ⟨v, hv⟩ := bits
    exact ⟨v, (encBinary32_eq_some_iff h0).2 ⟨den_of_scaled hn, m, e, hf, hv⟩⟩

end Sys2Proof.Machine
end

section
/-! SUPPORT. The domains of the types (40_field_types.md R55): `encNumber` gives a register that stands for the number, and misses no such register. -/

namespace Sys2Proof.Machine

theorem intInRange_eq_some_iff {lo hi z : Int} {q : Rat} : intInRange lo hi q = some z ↔ q = z ∧ lo ≤ z ∧ z ≤ hi := by
  constructor
  · intro h
    unfold intInRange at h
    split_ifs at h with hq
    obtain ⟨hd, hlo, hhi⟩ := hq
    cases h
    exact ⟨(Rat.den_eq_one_iff q).1 hd |>.symm, hlo, hhi⟩
  · rintro ⟨rfl, hlo, hhi⟩
    exact if_pos ⟨Rat.den_intCast z, hlo, hhi⟩

theorem intInRange_of_outside {lo hi z : Int} (h : z < lo ∨ hi < z) : intInRange lo hi z = none := by
  refine if_neg fun hq => ?_
  obtain ⟨-, hlo, hhi⟩ := hq
  rw [Rat.num_intCast] at hlo hhi
  omega

/-- An integer in the range of an unsigned type enters as the register it is the number of. -/
theorem toNat_ofInt_of_range {w : Nat} {z : Int} (h0 : 0 ≤ z) (h : z < 2 ^ w) : ((BitVec.ofInt w z).toNat : Int) = z := by
  rw [BitVec.toNat_ofInt, Int.toNat_of_nonneg (Int.emod_nonneg _ (by positivity))]
  exact Int.emod_eq_of_lt h0 (by exact_mod_cast h)

/-- An integer in the range of a signed type enters as the register it is the number of. -/
theorem toInt_ofInt_of_range {w : Nat} {z : Int} (h0 : -2 ^ w ≤ z) (h : z < 2 ^ w) : (BitVec.ofInt (w + 1) z).toInt = z := by
  rw [BitVec.toInt_ofInt, Int.bmod_eq_of_le]
  all_goals { push_cast; rw [pow_succ]; omega }

/-- The number a register stands for enters as that register. -/
theorem encNumber_valNumber (v : FieldValue) : encNumber v.type (valNumber v) = some v := by
  have bit : ∀ v : Bit, encNumber .bool (valNumber (.bool v)) = some (.bool v) := by decide
  have enters : ∀ {lo hi z : Int} (f : Int → FieldValue), lo ≤ z ∧ z ≤ hi → f z = v → (intInRange lo hi z).map f = some v :=
    fun f hz hf => by rw [intInRange_eq_some_iff.2 ⟨rfl, hz⟩, Option.map_some, hf]
  cases v with
  | bool v => exact bit v
  | byte v | uint16 v | uint32 v =>
    have := v.isLt
    exact enters (z := v.toNat) _ (by omega) (by rw [BitVec.ofInt_natCast, BitVec.ofNat_toNat, BitVec.setWidth_eq])
  | int16 v | int32 v =>
    have := v.le_toInt
    have := v.toInt_lt
    exact enters (z := v.toInt) _ (by omega) (by rw [BitVec.ofInt_toInt])
  | float32 v => rfl

/-- A register that a number enters as stands for it. -/
theorem standsFor_of_encNumber {T : FieldType} {z : Number} {v : FieldValue} (h : encNumber T z = some v) : v.type = T ∧ v.standsFor z := by
  have entered : ∀ {lo hi : Int} {f : Int → FieldValue} {q : Rat}, (intInRange lo hi q).map f = some v →
      ∃ z : Int, q = z ∧ (lo ≤ z ∧ z ≤ hi) ∧ f z = v := fun h => by
    obtain ⟨z, hz, hf⟩ := Option.map_eq_some_iff.1 h
    obtain ⟨hq, hr⟩ := intInRange_eq_some_iff.1 hz
    exact ⟨z, hq, hr, hf⟩
  cases T with
  | bool =>
    cases z with
    | truth b => cases h; exact ⟨rfl, .inl (by cases b <;> rfl)⟩
    | rational | datum => cases h
  | byte | uint16 | uint32 =>
    cases z with
    | rational q =>
      obtain ⟨z, rfl, hr, rfl⟩ := entered h
      refine ⟨rfl, .inl (congrArg Number.rational ?_)⟩
      exact_mod_cast toNat_ofInt_of_range hr.1 (by omega)
    | truth | datum => cases h
  | int16 | int32 =>
    cases z with
    | rational q =>
      obtain ⟨z, rfl, hr, rfl⟩ := entered h
      refine ⟨rfl, .inl (congrArg Number.rational ?_)⟩
      exact_mod_cast toInt_ofInt_of_range (by omega) (by omega)
    | truth | datum => cases h
  | float32 =>
    cases z with
    | rational q =>
      obtain ⟨w, hw, rfl⟩ := Option.map_eq_some_iff.1 h
      exact ⟨rfl, .inr ⟨w, q, rfl, rfl, binary32Value_of_encBinary32 hw⟩⟩
    | datum p => cases h; exact ⟨rfl, .inl rfl⟩
    | truth => cases h

/-- A number that a register stands for enters. -/
theorem encNumber_of_standsFor {v : FieldValue} {z : Number} (h : v.standsFor z) : ∃ w, encNumber v.type z = some w := by
  rcases h with rfl | ⟨w, q, rfl, rfl, hw⟩
  · exact ⟨v, encNumber_valNumber v⟩
  · obtain ⟨p, hp⟩ := encBinary32_of_binary32Value hw
    exact ⟨.float32 p, Option.map_eq_some_iff.2 ⟨p, hp, rfl⟩⟩

theorem interact_handNumber_of_some {T : FieldType} {z : Number} {v : FieldValue} (s : State) (h : encNumber T z = some v) :
    interact (.handNumber T z) s = .next { s with vals := s.vals.put v } := by
  simp only [interact, handNumber, h]; rfl

theorem interact_handNumber_of_none {T : FieldType} {z : Number} (s : State) (h : encNumber T z = none) :
    interact (.handNumber T z) s = .refused .outOfDomain := by
  simp only [interact, handNumber, h]

/-- An integer outside the range of an integer type is refused. -/
theorem interact_handNumber_of_outside {T : FieldType} {lo hi z : Int} {f : Int → FieldValue} (s : State)
    (hT : ∀ q, encNumber T (.rational q) = (intInRange lo hi q).map f) (h : z < lo ∨ hi < z) :
    interact (.handNumber T (.rational z)) s = .refused .outOfDomain :=
  interact_handNumber_of_none s (by rw [hT, intInRange_of_outside h]; rfl)

end Sys2Proof.Machine
end

section
/-! The statement about numbers that enter. -/

namespace Sys2Proof.Machine

/-- Settles O57: `encNumber` finds a register exactly if one stands for the number. -/
theorem numbersEnterOnlyInDomain : Obligations.NumbersEnterOnlyInDomain := by
  intro s
  refine ⟨fun v => interact_handNumber_of_some s (encNumber_valNumber v), fun v z h => ?_, fun T z h => ?_, fun T z t h => ?_,
    fun z => interact_handNumber_of_outside s fun _ => rfl, fun z => interact_handNumber_of_outside s fun _ => rfl,
    fun z => interact_handNumber_of_outside s fun _ => rfl, fun z => interact_handNumber_of_outside s fun _ => rfl,
    fun z => interact_handNumber_of_outside s fun _ => rfl, interact_handNumber_of_outside s (fun _ => rfl) (.inl (by decide))⟩
  · obtain ⟨w, hw⟩ := encNumber_of_standsFor h
    obtain ⟨ht, hs⟩ := standsFor_of_encNumber hw
    exact ⟨w, ht, hs, interact_handNumber_of_some s hw⟩
  · cases hv : encNumber T z with
    | none => exact interact_handNumber_of_none s hv
    | some v =>
      obtain ⟨ht, hs⟩ := standsFor_of_encNumber hv
      exact absurd hs (h v ht)
  · cases hv : encNumber T z with
    | none => cases (interact_handNumber_of_none s hv).symm.trans h
    | some v =>
      obtain ⟨ht, hs⟩ := standsFor_of_encNumber hv
      exact ⟨v, ht, hs, (Host.Outcome.next.inj ((interact_handNumber_of_some s hv).symm.trans h)).symm⟩

end Sys2Proof.Machine
end
